-- ==== Sys2Proof/Word.lean ====
section
/-! DEFINITION. The machine's word types: the 64-bit word of every register and command (00_scope.md R7, R9), the
byte of DMEM and IBUF, and the 24-bit DMEM byte address (20_memory.md R60). -/

namespace Sys2Proof

/-- A 64-bit word; bit 0 is the least significant bit (00_scope.md R9). -/
abbrev Word := BitVec 64

/-- A byte of DMEM or IBUF. -/
abbrev Byte := BitVec 8

/-- A 24-bit DMEM byte address or length (00_scope.md R8, 30_encoding.md R81). -/
abbrev Addr := BitVec 24

end Sys2Proof
end

