-- ==== Sys2Proof/Machine/Cipher.lean ====
section
/-! DEFINITION. Threefish (40_threefish.md R110 to R120): a pure function of key, tweak and plaintext. -/

namespace Sys2Proof.Machine

/-- `Nr`, the rounds for `nw` state words (40_threefish.md R110). DESIGN CHOICE (log 12): at a size other than 4, 8 and 16, which
no run reaches (R122), 72, as for 4. -/
def rounds (nw : Nat) : Nat := if nw = 16 then 80 else 72

/-- The key-schedule constant (40_threefish.md R111). -/
def c240 : Word := 0x1BD11BDAA9FC1A22

/-- The rotation constants for four state words, one row per `d mod 8` (40_threefish.md R116). -/
def rotations4 : List (List Nat) :=
  [[14, 16], [52, 57], [23, 40], [5, 37], [25, 33], [46, 12], [58, 22], [32, 32]]

/-- The rotation constants for eight state words (40_threefish.md R116). -/
def rotations8 : List (List Nat) :=
  [[46, 36, 19, 37], [33, 27, 14, 42], [17, 49, 36, 39], [44, 9, 54, 56],
   [39, 30, 34, 24], [13, 50, 10, 17], [25, 29, 39, 43], [8, 35, 56, 22]]

/-- The rotation constants for sixteen state words (40_threefish.md R116). -/
def rotations16 : List (List Nat) :=
  [[24, 13, 8, 47, 8, 17, 22, 37], [38, 19, 10, 55, 49, 18, 23, 52],
   [33, 4, 51, 13, 34, 41, 59, 17], [5, 20, 48, 41, 47, 28, 16, 25],
   [41, 9, 37, 31, 12, 47, 44, 30], [16, 34, 56, 51, 4, 53, 42, 41],
   [31, 44, 47, 46, 19, 42, 44, 25], [9, 48, 35, 52, 23, 31, 37, 20]]

/-- The rotations of round `d`, one per pair (40_threefish.md R116). DESIGN CHOICE (log 12): at a size other than 4, 8 and 16,
which no run reaches (R122), those for 4. -/
def rotations (nw d : Nat) : List Nat :=
  (if nw = 16 then rotations16 else if nw = 8 then rotations8 else rotations4).getD (d % 8) []

/-- The word permutation π as the list `π(0), π(1), ...` (40_threefish.md R117). DESIGN CHOICE (log 12): at a size other than 4,
8 and 16, which no run reaches (R122), that for 4. -/
def permutation (nw : Nat) : List Nat :=
  if nw = 16 then [0, 9, 2, 13, 6, 11, 4, 15, 10, 7, 12, 3, 14, 5, 8, 1]
  else if nw = 8 then [2, 1, 4, 7, 6, 5, 0, 3]
  else [0, 3, 2, 1]

/-- The extended key: the key words and the parity word (40_threefish.md R112). -/
def extendKey (k : List Word) : List Word := k ++ [k.foldl (· ^^^ ·) c240]

/-- The extended tweak (40_threefish.md R113). -/
def extendTweak (t0 t1 : Word) : List Word := [t0, t1, t0 ^^^ t1]

/-- Word `i` of subkey `s`, from the extended key `k` and the extended tweak `t` (40_threefish.md R114). -/
def subkeyWord (nw : Nat) (k t : List Word) (s i : Nat) : Word :=
  let base := k.getD ((s + i) % (nw + 1)) 0
  if i + 3 = nw then base + t.getD (s % 3) 0
  else if i + 2 = nw then base + t.getD ((s + 1) % 3) 0
  else if i + 1 = nw then base + BitVec.ofNat 64 s
  else base

/-- Subkey `s` (40_threefish.md R114). -/
def subkey (nw : Nat) (k t : List Word) (s : Nat) : List Word := (List.range nw).map (subkeyWord nw k t s)

/-- `MIX_r(x0, x1)` (40_threefish.md R115). -/
def mix (r : Nat) (x0 x1 : Word) : Word × Word := (x0 + x1, x1.rotateLeft r ^^^ (x0 + x1))

/-- The MIX layer of a round: each pair of words with its rotation (40_threefish.md R118). -/
def mixLayer : List Nat → List Word → List Word
  | r :: rs, x0 :: x1 :: v => (mix r x0 x1).1 :: (mix r x0 x1).2 :: mixLayer rs v
  | _, _ => []

/-- `v'[i] = f[π(i)]` (40_threefish.md R117). -/
def permute (π : List Nat) (f : List Word) : List Word := π.map (fun i => f.getD i 0)

/-- Word-wise addition modulo 2^64. -/
def addWords (a b : List Word) : List Word := List.zipWith (· + ·) a b

/-- Word-wise exclusive or. -/
def xorWords (a b : List Word) : List Word := List.zipWith (· ^^^ ·) a b

/-- Round `d`: every fourth round the subkey first, then the MIX layer, then the permutation (40_threefish.md R118). -/
def round (nw : Nat) (k t : List Word) (d : Nat) (v : List Word) : List Word :=
  let v := if d % 4 = 0 then addWords v (subkey nw k t (d / 4)) else v
  permute (permutation nw) (mixLayer (rotations nw d) v)

/-- `n` rounds from round `d` on. -/
def roundsFrom (nw : Nat) (k t : List Word) : Nat → Nat → List Word → List Word
  | 0, _, v => v
  | n + 1, d, v => roundsFrom nw k t n (d + 1) (round nw k t d v)

/-- `Threefish(K, T, P)` (40_threefish.md R118), the final subkey included (R119). -/
def threefish (nw : Nat) (key : List Word) (t0 t1 : Word) (p : List Word) : List Word :=
  let k := extendKey key
  let t := extendTweak t0 t1
  addWords (roundsFrom nw k t (rounds nw) 0 p) (subkey nw k t (rounds nw / 4))

end Sys2Proof.Machine
end

