-- ==== Sys2Proof/Machine/Bytes.lean ====
section
/-! DEFINITION. Byte order (20_memory.md R63, R64): words and bytes are converted little-endian, always. -/

namespace Sys2Proof.Machine

/-- Byte `j` of a word, `w[8j+7:8j]` (20_memory.md R63). -/
def wordByte (w : Word) (j : Nat) : Byte := w.extractLsb' (8 * j) 8

/-- The `n` low bytes of a word, least significant first. -/
def wordBytes (n : Nat) (w : Word) : List Byte := (List.range n).map (wordByte w)

/-- The word whose bytes are `bs`, least significant first: the sum of `b[j] * 2^(8j)` (20_memory.md R63). Fewer than eight
bytes are the low bytes of the word. -/
def leWord (bs : List Byte) : Word := bs.foldr (fun b acc => (acc <<< 8) ||| b.setWidth 64) 0

/-- `LEWords(b, n)`: `n` words from `8n` bytes (20_memory.md R63). -/
def leWords : Nat → List Byte → List Word
  | 0, _ => []
  | n + 1, bs => leWord (bs.take 8) :: leWords n (bs.drop 8)

/-- `LEBytes(w)`: the bytes of a word sequence, least significant word and byte first (20_memory.md R63). -/
def leBytes (ws : List Word) : List Byte := ws.flatMap (wordBytes 8)

/-- `w` with the bits `lo+n-1 : lo` replaced by `v`; every other bit is kept. -/
def insertField {n : Nat} (w : Word) (lo : Nat) (v : BitVec n) : Word :=
  (w &&& ~~~((BitVec.allOnes n).setWidth 64 <<< lo)) ||| (v.setWidth 64 <<< lo)

end Sys2Proof.Machine
end

