-- ==== Sys2Proof/Syntax.lean ====
section
/-! DEFINITION. The commands: one constructor per row of spec/opcode_table.json (30_encoding.md R83). A constructor holds
the operand fields that its encoding leaves open (R85); fields that "must be 0" are in no constructor. -/

namespace Sys2Proof

/-- The 25 commands of 30_encoding.md R83. `a` is field A (bits 15:8), `imm` field IMM (63:32), `addr` field ADDR (39:16)
and `len` field LEN (63:40). -/
inductive Instr where
  /-- Stop the sequencer (46_sequencer.md R291). -/
  | halt
  /-- No operation (46_sequencer.md R292). -/
  | nop
  /-- Create the engine: `a` = state words, `imm` = output bits (42_config.md R190). -/
  | create (a : BitVec 8) (imm : BitVec 32)
  /-- Set the schema tag from DMEM (42_config.md R191). -/
  | setschema (addr len : Addr)
  /-- Set the version (42_config.md R192). -/
  | setver (imm : BitVec 32)
  /-- Set the tree leaf size (42_config.md R193). -/
  | setleaf (a : BitVec 8)
  /-- Set the tree fan-out (42_config.md R194). -/
  | setfan (a : BitVec 8)
  /-- Set the maximum tree height (42_config.md R195). -/
  | setheight (a : BitVec 8)
  /-- Derive the configuration value: `a` = 0 zero key, 1 chained key (42_config.md R196). -/
  | gencfg (a : BitVec 8)
  /-- Key the engine for MAC (45_mac.md R273). -/
  | mackey (addr len : Addr)
  /-- Initialize the engine in mode `a` (43_ubi.md R220). -/
  | init (a : BitVec 8)
  /-- Load an external chaining state (43_ubi.md R221). -/
  | ldstate (addr len : Addr)
  /-- Store the chaining state (43_ubi.md R222). -/
  | ststate (addr len : Addr)
  /-- Append `len` bytes (43_ubi.md R223). -/
  | update (addr len : Addr)
  /-- Append `len` bits (43_ubi.md R224). -/
  | updbits (addr len : Addr)
  /-- Finish the current UBI call (43_ubi.md R225). -/
  | ubifin
  /-- Finish the message and write the digest (44_output.md R255). -/
  | dofinal (addr : Addr)
  /-- Start a new block type (41_tweak.md R160). -/
  | twstart (a : BitVec 8)
  /-- Set or clear one tweak flag (41_tweak.md R161). -/
  | twflag (a : BitVec 8) (imm : BitVec 32)
  /-- Set the tree level (41_tweak.md R162). -/
  | twlevel (a : BitVec 8)
  /-- Add to the position counter (41_tweak.md R163). -/
  | twadd (imm : BitVec 32)
  /-- Store the tweak register (41_tweak.md R164). -/
  | sttweak (addr len : Addr)
  /-- Load the raw cipher key (40_threefish.md R125). -/
  | tfkey (addr len : Addr)
  /-- Load the raw cipher tweak (40_threefish.md R126). -/
  | tftweak (addr len : Addr)
  /-- Encrypt one block in place (40_threefish.md R127). -/
  | tfenc (addr : Addr)
deriving DecidableEq, Repr

end Sys2Proof
end

