-- ==== Sys2Proof/WellFormed.lean ====
section
/-! DEFINITION. Which terms of Instr are commands: those whose fields 30_encoding.md R85 does not mark ILLEGAL. -/

namespace Sys2Proof

/-- The column "ILLEGAL when" of 30_encoding.md R85, for the fields that a constructor holds: GENCFG takes A ≤ 1, INIT
takes A ≤ 3, TWFLAG takes A ≤ 2 and IMM ≤ 1. A field value that R85 lists under ARG is well formed: the command runs and
raises INVALID_ARGUMENT. -/
def Instr.wellFormed : Instr → Bool
  | .gencfg a => decide (a.toNat ≤ 1)
  | .init a => decide (a.toNat ≤ 3)
  | .twflag a imm => decide (a.toNat ≤ 2) && decide (imm.toNat ≤ 1)
  | .halt | .nop | .create .. | .setschema .. | .setver .. | .setleaf .. | .setfan .. | .setheight .. | .mackey ..
  | .ldstate .. | .ststate .. | .update .. | .updbits .. | .ubifin | .dofinal .. | .twstart .. | .twlevel ..
  | .twadd .. | .sttweak .. | .tfkey .. | .tftweak .. | .tfenc .. => true

end Sys2Proof
end

