-- ==== Sys2Proof/Decode.lean ====
section
/-! DEFINITION. The command encoding (30_encoding.md): the decoder, total on any 64-bit word and on any bytes, and the
encoder, both from the field tables of R81 and R82 and the opcode map of R83. -/

namespace Sys2Proof

/-- The opcode of a command, one constructor per row of 30_encoding.md R83. -/
inductive Opcode where
  | halt | nop | create | setschema | setver | setleaf | setfan | setheight | gencfg | mackey | init | ldstate
  | ststate | update | updbits | ubifin | dofinal | twstart | twflag | twlevel | twadd | sttweak | tfkey | tftweak
  | tfenc
deriving DecidableEq, Repr

/-- The two command formats: C (R81) and I (R82). -/
inductive Format where
  | c | i
deriving DecidableEq, Repr

/-- Why a word is no command, in the order of the checks of 30_encoding.md R87. Each is the engine's ILLEGAL_COMMAND. -/
inductive DecodeError where
  /-- OP is not in the opcode map (R86). -/
  | reservedOpcode
  /-- Z ≠ 0 in a format I command, or A ≠ 0 in a format C command (R87). -/
  | reservedField
  /-- A field value that R85 marks ILLEGAL. -/
  | illegalValue
  /-- Fewer than the eight bytes of a command word were given; a fetch never does so (R80). -/
  | truncated
deriving DecidableEq, Repr

/-- OP, the opcode map of 30_encoding.md R83. -/
def Opcode.code : Opcode → BitVec 8
  | .halt => 0x00 | .nop => 0x01
  | .create => 0x10 | .setschema => 0x11 | .setver => 0x12 | .setleaf => 0x13 | .setfan => 0x14 | .setheight => 0x15
  | .gencfg => 0x16 | .mackey => 0x18
  | .init => 0x20 | .ldstate => 0x21 | .ststate => 0x22
  | .update => 0x28 | .updbits => 0x29 | .ubifin => 0x2A | .dofinal => 0x2B
  | .twstart => 0x30 | .twflag => 0x31 | .twlevel => 0x32 | .twadd => 0x33 | .sttweak => 0x34
  | .tfkey => 0x38 | .tftweak => 0x39 | .tfenc => 0x3A

/-- Every opcode, in the order of 30_encoding.md R83. -/
def opcodeMap : List Opcode :=
  [.halt, .nop, .create, .setschema, .setver, .setleaf, .setfan, .setheight, .gencfg, .mackey, .init, .ldstate,
   .ststate, .update, .updbits, .ubifin, .dofinal, .twstart, .twflag, .twlevel, .twadd, .sttweak, .tfkey, .tftweak,
   .tfenc]

/-- The opcode with code `b`; `none` for a reserved one (30_encoding.md R86). -/
def opcodeOf (b : BitVec 8) : Option Opcode := opcodeMap.find? (fun op => op.code == b)

/-- The column "format" of 30_encoding.md R83. -/
def Opcode.format : Opcode → Format
  | .setschema | .mackey | .ldstate | .ststate | .update | .updbits | .dofinal | .sttweak | .tfkey | .tftweak
  | .tfenc => .c
  | .halt | .nop | .create | .setver | .setleaf | .setfan | .setheight | .gencfg | .init | .ubifin | .twstart
  | .twflag | .twlevel | .twadd => .i

/-- Field OP, bits 7:0 (R81, R82). -/
def fieldOp (w : Word) : BitVec 8 := w.extractLsb' 0 8
/-- Field A, bits 15:8 (R81, R82). -/
def fieldA (w : Word) : BitVec 8 := w.extractLsb' 8 8
/-- Field Z of format I, bits 31:16 (R82). -/
def fieldZ (w : Word) : BitVec 16 := w.extractLsb' 16 16
/-- Field IMM of format I, bits 63:32 (R82). -/
def fieldImm (w : Word) : BitVec 32 := w.extractLsb' 32 32
/-- Field ADDR of format C, bits 39:16 (R81). -/
def fieldAddr (w : Word) : Addr := w.extractLsb' 16 24
/-- Field LEN of format C, bits 63:40 (R81). -/
def fieldLen (w : Word) : Addr := w.extractLsb' 40 24

/-- The reserved field of the opcode's format is not 0: Z in format I, A in format C (30_encoding.md R87). -/
def reservedFieldSet (op : Opcode) (w : Word) : Bool :=
  match op.format with
  | .i => fieldZ w != 0
  | .c => fieldA w != 0

/-- The column "ILLEGAL when" of 30_encoding.md R85, but for A ≠ 0 in format C, which `reservedFieldSet` checks. -/
def illegalValue (op : Opcode) (w : Word) : Bool :=
  match op with
  | .halt | .nop | .ubifin => fieldA w != 0 || fieldImm w != 0
  | .create => false
  | .setver | .twadd => fieldA w != 0
  | .setleaf | .setfan | .setheight | .twstart | .twlevel => fieldImm w != 0
  | .gencfg => decide (1 < (fieldA w).toNat) || fieldImm w != 0
  | .init => decide (3 < (fieldA w).toNat) || fieldImm w != 0
  | .twflag => decide (2 < (fieldA w).toNat) || decide (1 < (fieldImm w).toNat)
  | .dofinal | .tfenc => fieldLen w != 0
  | .setschema | .mackey | .ldstate | .ststate | .update | .updbits | .sttweak | .tfkey | .tftweak => false

/-- The command of an opcode with the operand fields of a word (30_encoding.md R84, R85). -/
def assemble (op : Opcode) (w : Word) : Instr :=
  match op with
  | .halt => .halt
  | .nop => .nop
  | .create => .create (fieldA w) (fieldImm w)
  | .setschema => .setschema (fieldAddr w) (fieldLen w)
  | .setver => .setver (fieldImm w)
  | .setleaf => .setleaf (fieldA w)
  | .setfan => .setfan (fieldA w)
  | .setheight => .setheight (fieldA w)
  | .gencfg => .gencfg (fieldA w)
  | .mackey => .mackey (fieldAddr w) (fieldLen w)
  | .init => .init (fieldA w)
  | .ldstate => .ldstate (fieldAddr w) (fieldLen w)
  | .ststate => .ststate (fieldAddr w) (fieldLen w)
  | .update => .update (fieldAddr w) (fieldLen w)
  | .updbits => .updbits (fieldAddr w) (fieldLen w)
  | .ubifin => .ubifin
  | .dofinal => .dofinal (fieldAddr w)
  | .twstart => .twstart (fieldA w)
  | .twflag => .twflag (fieldA w) (fieldImm w)
  | .twlevel => .twlevel (fieldA w)
  | .twadd => .twadd (fieldImm w)
  | .sttweak => .sttweak (fieldAddr w) (fieldLen w)
  | .tfkey => .tfkey (fieldAddr w) (fieldLen w)
  | .tftweak => .tftweak (fieldAddr w) (fieldLen w)
  | .tfenc => .tfenc (fieldAddr w)

/-- The decode check of 30_encoding.md R87, then the command. Every 64-bit word is a command or an error. -/
def decode (w : Word) : Except DecodeError Instr :=
  match opcodeOf (fieldOp w) with
  | none => .error .reservedOpcode
  | some op =>
    if reservedFieldSet op w then .error .reservedField
    else if illegalValue op w then .error .illegalValue
    else .ok (assemble op w)

/-- The command in the first eight bytes of a byte sequence, stored little-endian (30_encoding.md R80). -/
def decodeBytes (bs : List Byte) : Except DecodeError Instr :=
  if bs.length < 8 then .error .truncated else decode (Machine.leWord (bs.take 8))

/-- A format I word (30_encoding.md R82), Z = 0. -/
def packI (op : Opcode) (a : BitVec 8) (imm : BitVec 32) : Word := imm ++ 0#16 ++ a ++ op.code

/-- A format C word (30_encoding.md R81), A = 0. -/
def packC (op : Opcode) (addr len : Addr) : Word := len ++ addr ++ 0#8 ++ op.code

/-- The word of a command (30_encoding.md R81 to R83, R85). -/
def encode : Instr → Word
  | .halt => packI .halt 0 0
  | .nop => packI .nop 0 0
  | .create a imm => packI .create a imm
  | .setschema addr len => packC .setschema addr len
  | .setver imm => packI .setver 0 imm
  | .setleaf a => packI .setleaf a 0
  | .setfan a => packI .setfan a 0
  | .setheight a => packI .setheight a 0
  | .gencfg a => packI .gencfg a 0
  | .mackey addr len => packC .mackey addr len
  | .init a => packI .init a 0
  | .ldstate addr len => packC .ldstate addr len
  | .ststate addr len => packC .ststate addr len
  | .update addr len => packC .update addr len
  | .updbits addr len => packC .updbits addr len
  | .ubifin => packI .ubifin 0 0
  | .dofinal addr => packC .dofinal addr 0
  | .twstart a => packI .twstart a 0
  | .twflag a imm => packI .twflag a imm
  | .twlevel a => packI .twlevel a 0
  | .twadd imm => packI .twadd 0 imm
  | .sttweak addr len => packC .sttweak addr len
  | .tfkey addr len => packC .tfkey addr len
  | .tftweak addr len => packC .tftweak addr len
  | .tfenc addr => packC .tfenc addr 0

/-- The eight bytes, as DMEM stores them, of the instruction whose bits are `w mod 2^nbits`, every bit above 0. -/
def tableWordBytes (nbits w : Nat) : List Byte := Machine.wordBytes 8 (BitVec.ofNat 64 (w % 2 ^ nbits))

/-- The command that the decoder reads from the instruction whose bits are `w`, numbered as spec/opcode_table.json
numbers them (bit 0 is the least significant bit of the one 64-bit word). -/
def decodeTableWord (nbits w : Nat) : Option Instr := (decodeBytes (tableWordBytes nbits w)).toOption

end Sys2Proof
end

