-- ==== Sys2Proof/Config.lean ====
section
/-! DEFINITION. What an implementation fixes (00_scope.md R8) and the free values, which nothing fixes. -/

namespace Sys2Proof

/-- The parameters of one engine (00_scope.md R8). They are no architectural state (10_state.md R20): no step of the model
writes them. They stand in the machine's State as plain data so that a step can read them and a claim holds for
every legal value (log 2). -/
structure Config where
  /-- DMEM_SIZE, the bytes of data memory (00_scope.md R8, 20_memory.md R61). -/
  dmemSize : Nat
deriving DecidableEq, Repr

/-- The legal parameter values: DMEM_SIZE is a multiple of 8 with 64 ≤ DMEM_SIZE ≤ 2^24 (00_scope.md R8). -/
abbrev Config.Valid (c : Config) : Prop :=
  c.dmemSize % 8 = 0 ∧ 64 ≤ c.dmemSize ∧ c.dmemSize ≤ 2 ^ 24

/-- The reference parameters: DMEM_SIZE = 65536 (00_scope.md R8). -/
def Config.reference : Config := { dmemSize := 65536 }

/-- FREE VALUE (DESIGN CHOICE, safe, log 5). What the host reads while BUSY = 1 from anything but CTRL and STATUS: "A read returns an
unspecified value" (70_reset_and_hazards.md R344). The argument counts the free values drawn so far. -/
opaque Config.busyReadValue : Nat → Word

/-- FREE VALUE (DESIGN CHOICE, log 6). The byte that a host DMEM write made while BUSY = 1 leaves: "A DMEM write leaves an unspecified
value in the written bytes" (70_reset_and_hazards.md R344). The argument counts the free values drawn so far. -/
opaque Config.busyWriteByte : Nat → Byte

end Sys2Proof
end

