-- ==== Sys2Proof/Machine/State.lean ====
section
/-! DEFINITION. The machine's state (10_state.md R20, 20_memory.md R61), what can happen at its host port, the reasons a step
can stop, and the state after reset (70_reset_and_hazards.md R340). -/

namespace Sys2Proof.Machine

/-- Register PHASE (10_state.md R27): the engine's life. The register's value 3 is never written and has no constructor. -/
inductive Phase where
  /-- 0: no engine until a CREATE succeeds. -/
  | uninit
  /-- 1: accumulating input. -/
  | accum
  /-- 2: inside DOFINAL's output stage; never at a command boundary. -/
  | finalized
deriving DecidableEq, Repr

/-- The error codes 1 to 6 of 60_exceptions.md R300. -/
inductive ErrorCode where
  | invalidArgument | invalidState | unsupported | illegalCommand | memFault | uninitialized
deriving DecidableEq, Repr

/-- One host access at the host port (20_memory.md R67, R68): a 25-bit byte offset, a width in bytes, and for a write a value
whose low bytes are written. -/
inductive HostAccess where
  | read (off : BitVec 25) (width : Nat)
  | write (off : BitVec 25) (width : Nat) (value : Word)
deriving DecidableEq, Repr

/-- What moves next (DESIGN CHOICE, log 3). Host accesses fall between two sequencer steps (46_sequencer.md R290). -/
inductive Turn where
  /-- The sequencer: one step if BUSY = 1, nothing if BUSY = 0. -/
  | engine
  /-- The host, one access. -/
  | host (a : HostAccess)
  /-- The hardware reset input (70_reset_and_hazards.md R340). -/
  | hardwareReset
deriving DecidableEq, Repr

/-- DMEM as its listed bytes: addresses strictly rising, no listed byte equal to what an unlisted one reads as. -/
abbrev Memory := List Host.Cell

/-- What a DMEM byte that nothing has written reads as. DESIGN CHOICE, unsafe (log 1): the spec gives power-up DMEM no
defined value (20_memory.md R61, 70_reset_and_hazards.md R340). -/
def Memory.unwritten : Byte := 0

/-- The canonical form of a memory: addresses strictly rising, and no entry equal to what an unlisted address reads as. -/
abbrev Memory.wf (m : Memory) : Prop :=
  m.Pairwise (fun c d => c.1 < d.1) ∧ ∀ c ∈ m, c.2 ≠ Memory.unwritten

/-- The machine: every register of 10_state.md R20 in that table's order, DMEM, the parameters, and three fields of the
model's own. -/
structure State where
  /-- The engine's parameters, DMEM_SIZE (00_scope.md R8). No step writes them. -/
  cfg : Config
  /-- NW, the state size in 64-bit words: 0, 4, 8 or 16 (10_state.md R21). -/
  nw : BitVec 8
  /-- OUTBITS, the output length in bits (10_state.md R22). -/
  outbits : BitVec 32
  /-- STATE[0..15], the chaining state (10_state.md R23). -/
  chain : Vector Word 16
  /-- T0 (10_state.md R24, 41_tweak.md R150). -/
  t0 : Word
  /-- T1 (10_state.md R24, 41_tweak.md R150). -/
  t1 : Word
  /-- IBUF[0..127], the input buffer (10_state.md R25). -/
  ibuf : Vector Byte 128
  /-- FILL, the fill pointer (10_state.md R26). -/
  fill : BitVec 8
  /-- PHASE (10_state.md R27). -/
  phase : Phase
  /-- CFGSTR[0..3], the configuration string (10_state.md R28, 42_config.md R180). -/
  cfgstr : Vector Word 4
  /-- CFGVAL[0..15], the configuration value (10_state.md R29). -/
  cfgval : Vector Word 16
  /-- TFK[0..15], the raw cipher key (10_state.md R30). -/
  tfk : Vector Word 16
  /-- TFT[0..1], the raw cipher tweak (10_state.md R30). -/
  tft : Vector Word 2
  /-- PC, the command pointer; bits 2:0 are zero (10_state.md R31). -/
  pc : Addr
  /-- CTRL.IE_DONE (10_state.md R32). -/
  ieDone : Bool
  /-- CTRL.IE_ERR (10_state.md R32). -/
  ieErr : Bool
  /-- STATUS.BUSY (10_state.md R33). -/
  busy : Bool
  /-- STATUS.DONE (10_state.md R33). -/
  done : Bool
  /-- STATUS.ERR (10_state.md R33). -/
  err : Bool
  /-- STATUS.ERRCODE (10_state.md R33, 60_exceptions.md R300). -/
  errcode : BitVec 8
  /-- ERRPC (10_state.md R34). -/
  errpc : Addr
  /-- ERRCMD (10_state.md R34). -/
  errcmd : Word
  /-- DMEM (20_memory.md R61). -/
  dmem : Memory
  /-- The model's own (DESIGN CHOICE, log 3): what moves next, in order. Empty: the sequencer runs on. -/
  turns : List Turn
  /-- The model's own (DESIGN CHOICE, log 4): the value the last host read returned. -/
  hostData : Word
  /-- The model's own (DESIGN CHOICE, log 5): how many free values have been drawn. -/
  freeCtr : Nat
deriving DecidableEq, Repr

/-- A step never stops with a fault: every error the spec names (60_exceptions.md R300) is an error ENTRY (R302), after which
the machine stands in a next state with BUSY = 0 and ERR = 1. So this type has no constructor. -/
inductive Fault where
deriving DecidableEq, Repr

/-- What a step refuses. -/
inductive Refusal where
  /-- An instruction without a meaning, raised by `exec`'s refused arms. No arm raises it: every command has its meaning.
  Safe. -/
  | notModelled (mnemonic : String)
  /-- A host access of a width or alignment that the spec puts outside itself, raised by the host port: "Any other access
  ... is outside this spec. A model refuses it" (20_memory.md R68; 93_implementation_defined.md item 16). Safe. -/
  | hostAccessOutsideSpec
deriving DecidableEq, Repr

/-- The machine right after reset: every register of 10_state.md R20 at its reset value (70_reset_and_hazards.md R340), DMEM
with nothing listed (log 1), the reference parameters (log 2), no turn scheduled. -/
def State.reset : State where
  cfg := Config.reference
  nw := 0
  outbits := 0
  chain := Vector.replicate 16 0
  t0 := 0
  t1 := 0
  ibuf := Vector.replicate 128 0
  fill := 0
  phase := .uninit
  cfgstr := Vector.replicate 4 0
  cfgval := Vector.replicate 16 0
  tfk := Vector.replicate 16 0
  tft := Vector.replicate 2 0
  pc := 0
  ieDone := false
  ieErr := false
  busy := false
  done := false
  err := false
  errcode := 0
  errpc := 0
  errcmd := 0
  dmem := []
  turns := []
  hostData := 0
  freeCtr := 0

end Sys2Proof.Machine
end

