-- ==== Sys2Proof/Machine/Ops.lean ====
section
/-! DEFINITION. The named operations over memory and registers that every command is built from: reading and writing DMEM
(20_memory.md R62), the error entry (60_exceptions.md R302) and what stands in the place of a return from it (R307), the
resets (70_reset_and_hazards.md R340, R341), and the frame of a command: its checks, then its effect (00_scope.md R11). -/

namespace Sys2Proof.Machine

/-- The byte at an address. -/
def Memory.read : Memory → Nat → Byte
  | [], _ => Memory.unwritten
  | (k, b) :: m, a => if k = a then b else Memory.read m a

/-- The memory with byte `b` at address `a`, in canonical form again. -/
def Memory.write : Memory → Nat → Byte → Memory
  | [], a, b => if b = Memory.unwritten then [] else [(a, b)]
  | (k, c) :: m, a, b =>
    if a < k then (if b = Memory.unwritten then (k, c) :: m else (a, b) :: (k, c) :: m)
    else if a = k then (if b = Memory.unwritten then m else (a, b) :: m)
    else (k, c) :: Memory.write m a b

/-- `MemRead(addr, n)` (20_memory.md R62). -/
def Memory.readBytes (m : Memory) (addr n : Nat) : List Byte := (List.range n).map (fun i => Memory.read m (addr + i))

/-- `MemWrite(addr, n, b)`, in increasing address (20_memory.md R62). -/
def Memory.writeBytes (m : Memory) (addr : Nat) : List Byte → Memory
  | [] => m
  | b :: bs => Memory.writeBytes (Memory.write m addr b) (addr + 1) bs

/-- `MemRead` on the machine's DMEM. -/
def State.memRead (s : State) (addr n : Nat) : List Byte := s.dmem.readBytes addr n

/-- `MemWrite` on the machine's DMEM. -/
def State.memWrite (s : State) (addr : Nat) (bs : List Byte) : State := { s with dmem := s.dmem.writeBytes addr bs }

/-- `vs` with its first entries replaced by `ws`; the length is that of `vs`. -/
def overlay {α : Type} : List α → List α → List α
  | [], vs => vs
  | _, [] => []
  | w :: ws, _ :: vs => w :: overlay ws vs

/-- An overlay keeps the length of what it covers. -/
theorem overlay_length {α : Type} (ws vs : List α) : (overlay ws vs).length = vs.length := by
  induction ws generalizing vs with
  | nil => rfl
  | cons w ws ih => cases vs with
    | nil => rfl
    | cons v vs => simp [overlay, ih]

/-- `R[0..k-1] <- ws` for a register file `R`; the entries from `k` on are kept (00_scope.md R11). -/
def putFirst {α : Type} {n : Nat} (ws : List α) (v : Vector α n) : Vector α n :=
  ⟨(overlay ws v.toList).toArray, by simp [overlay_length]⟩

/-- `R[0..k-1]` of a register file. -/
def takeFirst {α : Type} {n : Nat} (k : Nat) (v : Vector α n) : List α := v.toList.take k

/-- Nw, the state size in words (10_state.md R21). -/
def State.words (s : State) : Nat := s.nw.toNat

/-- Nb, the block length in bytes (10_state.md R21). -/
def State.blockBytes (s : State) : Nat := 8 * s.words

/-- The code of an error as STATUS.ERRCODE holds it (60_exceptions.md R300). -/
def ErrorCode.code : ErrorCode → BitVec 8
  | .invalidArgument => 1
  | .invalidState => 2
  | .unsupported => 3
  | .illegalCommand => 4
  | .memFault => 5
  | .uninitialized => 6

/-- The error entry, `Fault(code, p, w)` (46_sequencer.md R290, 60_exceptions.md R302): the run stops, the error record is
written, PC keeps `p`, and nothing else changes. Every error of the machine is taken here. -/
def State.takeError (s : State) (e : ErrorCode) (w : Word) : State :=
  { s with busy := false, err := true, errcode := e.code, errpc := s.pc, errcmd := w }

/-- GO while BUSY = 0 (46_sequencer.md R293). It is also the only way on from an error: there is no return-from-error
command (60_exceptions.md R302), and the host restarts the run at PC as it stands (R307). -/
def State.startRun (s : State) : State := { s with done := false, err := false, errcode := 0, busy := true }

/-- The end of a successful step: `PC <- (pc0 + 8) mod 2^24` (46_sequencer.md R290). -/
def State.advancePc (s : State) : State := { s with pc := s.pc + 8 }

/-- HALT's end of the run: `BUSY <- 0 ; DONE <- 1` (46_sequencer.md R290, R291). -/
def State.haltRun (s : State) : State := { s with busy := false, done := true }

/-- The register effect that hardware reset and soft reset share (70_reset_and_hazards.md R340, R341): every register of
10_state.md R20 at its reset value. DMEM, the parameters and the model's own fields are unchanged. -/
def State.resetRegisters (s : State) : State :=
  { State.reset with
    cfg := s.cfg, dmem := s.dmem, turns := s.turns, hostData := s.hostData, freeCtr := s.freeCtr }

/-- One check of a command: whether it fails, and the error it then raises. -/
abbrev Check := Bool × ErrorCode

/-- The error of the first failing check (60_exceptions.md R303: "the checks run in the order of its pseudocode"). -/
def firstError : List Check → Option ErrorCode
  | [] => none
  | (fails, e) :: rest => if fails then some e else firstError rest

/-- A command: all its checks, in order, before its first write (00_scope.md R11). When a check raises, the error entry is
taken with the command's word and nothing else changes (60_exceptions.md R301, log 9); else the effect happens and the
PC advances (46_sequencer.md R290). -/
def runCommand (i : Instr) (checks : List Check) (effect : State → State) (s : State) :
    Host.Outcome State Fault Refusal :=
  match firstError checks with
  | some e => .next (s.takeError e (encode i))
  | none => .next (effect s).advancePc

/-- The fetch of a step: none when it lies outside DMEM, else the eight bytes at PC (46_sequencer.md R290). -/
def State.fetchBytes (s : State) : Option (List Byte) :=
  if s.cfg.dmemSize < s.pc.toNat + 8 then none else some (s.memRead s.pc.toNat 8)

end Sys2Proof.Machine
end

