-- ==== Sys2Proof/Machine/Flags.lean ====
section
/-! DEFINITION. The flags and fields of the tweak register (41_tweak.md R150 to R155) and the flags of CTRL and STATUS
(10_state.md R32, R33; 60_exceptions.md R306). -/

namespace Sys2Proof.Machine

/-- The BITPAD flag, T1[55] (41_tweak.md R150). -/
def State.bitpad (s : State) : Bool := s.t1.getLsbD 55
/-- The block type, T1[61:56] (41_tweak.md R150). -/
def State.blockType (s : State) : BitVec 6 := s.t1.extractLsb' 56 6
/-- The tree level, T1[54:48] (41_tweak.md R150). -/
def State.treeLevel (s : State) : BitVec 7 := s.t1.extractLsb' 48 7
/-- The position counter `T1[31:0] * 2^64 + T0` (41_tweak.md R152). -/
def State.position (s : State) : Nat := (s.t1.extractLsb' 0 32).toNat * 2 ^ 64 + s.t0.toNat

/-- `T1[bit] <- v` (41_tweak.md R161). -/
def State.setTweakBit (s : State) (bit : Nat) (v : Bool) : State :=
  { s with t1 := insertField s.t1 bit (BitVec.ofBool v) }

/-- `T1[54:48] <- level` (41_tweak.md R162). -/
def State.setTreeLevel (s : State) (level : BitVec 7) : State := { s with t1 := insertField s.t1 48 level }

/-- `StartType(t)` (41_tweak.md R153): TYPE = t, FIRST = 1, every other bit of the tweak 0. -/
def State.startType (s : State) (t : BitVec 8) : State :=
  { s with t0 := 0, t1 := (t.setWidth 64 <<< 56) ||| ((1 : Word) <<< 62) }

/-- `AddPos(n)` on the tweak words (41_tweak.md R154): a carry through the three 32-bit limbs; the carry out of the last is
discarded, T1[63:32] is unchanged. Limb `i` is `c_i mod 2^32`. -/
def addPosition (n : Nat) (t0 t1 : Word) : Word × Word :=
  let c0 := n + (t0.extractLsb' 0 32).toNat
  let c1 := c0 / 2 ^ 32 + (t0.extractLsb' 32 32).toNat
  let c2 := c1 / 2 ^ 32 + (t1.extractLsb' 0 32).toNat
  (BitVec.ofNat 32 c1 ++ BitVec.ofNat 32 c0, insertField t1 0 (BitVec.ofNat 32 c2))

/-- `AddPos(n)` (41_tweak.md R154). -/
def State.addPos (s : State) (n : Nat) : State :=
  { s with t0 := (addPosition n s.t0 s.t1).1, t1 := (addPosition n s.t0 s.t1).2 }

/-- The level of the interrupt output (60_exceptions.md R306). -/
def State.irq (s : State) : Bool := (s.done && s.ieDone) || (s.err && s.ieErr)

/-- PHASE as its two bits (10_state.md R27). -/
def Phase.bits : Phase → BitVec 2
  | .uninit => 0
  | .accum => 1
  | .finalized => 2

/-- CTRL as the host reads it: GO and SRST read 0 (10_state.md R32). -/
def State.ctrlWord (s : State) : Word :=
  0#61 ++ BitVec.ofBool s.ieErr ++ BitVec.ofBool s.ieDone ++ 0#1

/-- STATUS as the host reads it (10_state.md R33). -/
def State.statusWord (s : State) : Word :=
  0#38 ++ s.phase.bits ++ s.nw ++ s.errcode ++ 0#4 ++ BitVec.ofBool s.irq ++ BitVec.ofBool s.err
    ++ BitVec.ofBool s.done ++ BitVec.ofBool s.busy

end Sys2Proof.Machine
end

