-- ==== Sys2Proof/Machine/Operands.lean ====
section
/-! DEFINITION. The operand forms of the commands and the checks they share (30_encoding.md R84, R85; 20_memory.md R66;
60_exceptions.md R300). -/

namespace Sys2Proof.Machine

/-- `if PHASE = UNINIT: raise Uninitialized` (10_state.md R27). -/
def notCreated (s : State) : Check := (s.phase == .uninit, .uninitialized)

/-- `if LEN != n: raise InvalidArgument`. -/
def lengthNot (len : Addr) (n : Nat) : Check := (len.toNat != n, .invalidArgument)

/-- `CheckRange(addr, n)`, computed in unbounded integers; addresses never wrap (20_memory.md R66). -/
def outOfRange (s : State) (addr : Addr) (n : Nat) : Check := (decide (s.cfg.dmemSize < addr.toNat + n), .memFault)

/-- `if CFGSTR[2] != 0: raise Unsupported` (42_config.md R187). -/
def treeConfigured (s : State) : Check := (s.cfgstr[2] != 0, .unsupported)

/-- A field value that 30_encoding.md R85 marks ILLEGAL (R87). The decoder refuses such a word before the command runs, so
only a term that is not well formed meets this check (DEDUCED, safe, log 9). -/
def illegalWhen (bad : Bool) : Check := (bad, .illegalCommand)

/-- The block-type codes (41_tweak.md R151). -/
def blockTypes : List (BitVec 8) := [0, 4, 8, 12, 16, 20, 48, 63]

/-- The state sizes in words that CREATE takes (42_config.md R190). -/
def stateSizes : List (BitVec 8) := [4, 8, 16]

/-- `ceil(L/8)`, the bytes that hold `l` bits (43_ubi.md R224, 44_output.md R250). -/
def bytesOfBits (l : Nat) : Nat := (l + 7) / 8

/-- The word operand at a DMEM address: `LEWords(MemRead(addr, 8n), n)`. -/
def State.memWords (s : State) (addr n : Nat) : List Word := leWords n (s.memRead addr (8 * n))

end Sys2Proof.Machine
end

