-- ==== Sys2Proof/Machine/Engine.lean ====
section
/-! DEFINITION. The operations that the UBI, configuration, MAC and output commands share (42_config.md R184, 43_ubi.md R210
to R215, 44_output.md R250 to R252, 45_mac.md R270). -/

namespace Sys2Proof.Machine

/-- STATE[0..Nw-1], the chaining value (10_state.md R23). -/
def State.chainWords (s : State) : List Word := takeFirst s.words s.chain

/-- The block in IBUF as words, `LEWords(IBUF[0..Nb-1], Nw)` (43_ubi.md R210). -/
def State.bufferWords (s : State) : List Word := leWords s.words s.ibuf.toList

/-- `ProcessBlock(n)` (43_ubi.md R210): the counter first, then STATE <- E(STATE, T, P) xor P, with T the advanced tweak. -/
def State.processBlock (s : State) (n : Nat) : State :=
  let t := addPosition n s.t0 s.t1
  let p := s.bufferWords
  { s with
    t0 := t.1, t1 := t.2
    chain := putFirst (xorWords (threefish s.words s.chainWords t.1 t.2 p) p) s.chain }

/-- The lazy transform of a full buffer (43_ubi.md R211, R212): when FILL = Nb the pending block is processed, FIRST is
cleared and the buffer is empty. -/
def State.flushFull (s : State) : State :=
  if s.fill.toNat = s.blockBytes then { (s.processBlock s.blockBytes).setTweakBit 62 false with fill := 0 } else s

/-- `IBUF[FILL] <- b ; FILL <- FILL + 1` (43_ubi.md R212). -/
def State.pushByte (s : State) (b : Byte) : State :=
  { s with ibuf := s.ibuf.setIfInBounds s.fill.toNat b, fill := s.fill + 1 }

/-- `AppendByte(b)` (43_ubi.md R212). -/
def State.appendByte (s : State) (b : Byte) : State := s.flushFull.pushByte b

/-- `AppendByte` on each byte in turn. -/
def State.appendBytes (s : State) (bs : List Byte) : State := bs.foldl State.appendByte s

/-- `IBUF[FILL..Nb-1] <- 0` (43_ubi.md R213). -/
def State.zeroPad (s : State) : State :=
  { s with
    ibuf := putFirst (s.ibuf.toList.take s.fill.toNat ++ List.replicate (s.blockBytes - s.fill.toNat) 0) s.ibuf }

/-- `Finish()` (43_ubi.md R213): zero padding, FINAL, the transform with the bytes actually buffered, an empty buffer. -/
def State.finish (s : State) : State :=
  { ((s.zeroPad.setTweakBit 63 true).processBlock s.fill.toNat) with fill := 0 }

/-- `InitNormal()` (43_ubi.md R214): STATE <- CFGVAL, a Message tweak, an empty buffer. -/
def State.initNormal (s : State) : State :=
  { s.startType 48 with chain := putFirst (takeFirst s.words s.cfgval) s.chain, fill := 0 }

/-- The masking of `PadBits(r)` on one byte (43_ubi.md R215): the top `r` bits, one set bit below them, zeros. -/
def padByte (r : Nat) (b : Byte) : Byte :=
  let mask : Byte := 1 <<< (7 - r)
  (b &&& -mask) ||| mask

/-- `PadBits(r)`, on IBUF[FILL-1] (43_ubi.md R215). -/
def State.padBits (s : State) (r : Nat) : State :=
  { s with
    ibuf := s.ibuf.setIfInBounds (s.fill.toNat - 1) (padByte r (s.ibuf.toList.getD (s.fill.toNat - 1) 0)) }

/-- The configuration block: CFGSTR and Nw - 4 zero words (42_config.md R182). -/
def State.configBlock (s : State) : List Word := s.cfgstr.toList ++ List.replicate (s.words - 4) 0

/-- `GenConfig(K)` (42_config.md R184): CFGVAL <- E(K, (32, 0xC400000000000000), CB) xor CB, the words from Nw on 0. -/
def State.genConfig (s : State) (key : List Word) : State :=
  let cb := s.configBlock
  { s with
    cfgval := putFirst (xorWords (threefish s.words key 32 0xC400000000000000 cb) cb) (Vector.replicate 16 0) }

/-- The all-zero key of `generateConfiguration()` (42_config.md R185). -/
def State.zeroKey (s : State) : List Word := List.replicate s.words 0

/-- `OutBlock(G, ctr)` (44_output.md R251) for `nw` state words. -/
def outBlock (nw : Nat) (g : List Word) (ctr : Nat) : List Byte :=
  let p := BitVec.ofNat 64 ctr :: List.replicate (nw - 1) 0
  leBytes (xorWords (threefish nw g 8 0xFF00000000000000 p) p)

/-- The `ob`-byte digest under the chaining value `g`: output blocks 0, 1, ... joined and cut (44_output.md R252, R253). -/
def digest (nw : Nat) (g : List Word) (ob : Nat) : List Byte :=
  ((List.range ((ob + 8 * nw - 1) / (8 * nw))).flatMap (outBlock nw g)).take ob

/-- `ob = ceil(OUTBITS / 8)` (44_output.md R250). -/
def State.digestBytes (s : State) : Nat := bytesOfBits s.outbits.toNat

/-- The start of the key UBI call (45_mac.md R270): the zero chaining state, a Key tweak, an empty buffer. -/
def State.startKeyHash (s : State) : State :=
  { s.startType 0 with chain := putFirst s.zeroKey s.chain, fill := 0 }

end Sys2Proof.Machine
end

