-- ==== Sys2Proof/Machine/ConfigUnit.lean ====
section
/-! DEFINITION. The configuration unit's commands (42_config.md R190 to R196). -/

namespace Sys2Proof.Machine

/-- The default configuration string (42_config.md R181): schema "SHA3", version 1, the output length, no tree. -/
def defaultConfig (outbits : BitVec 32) : Vector Word 4 := #v[0x0000000133414853, outbits.setWidth 64, 0, 0]

/-- CREATE's writes, in the order of 42_config.md R190. -/
def State.createEngine (s : State) (a : BitVec 8) (imm : BitVec 32) : State :=
  let s := { s with
    nw := a, outbits := imm,
    chain := Vector.replicate 16 0, cfgval := Vector.replicate 16 0, ibuf := Vector.replicate 128 0,
    tfk := Vector.replicate 16 0, tft := Vector.replicate 2 0,
    cfgstr := defaultConfig imm }
  { (s.genConfig s.zeroKey).initNormal with phase := .accum }

/-- CREATE (42_config.md R190). Its checks are A, then IMM read as a signed number (30_encoding.md R84). -/
def execCreate (a : BitVec 8) (imm : BitVec 32) (s : State) : Host.Outcome State Fault Refusal :=
  runCommand (.create a imm)
    [(!stateSizes.contains a, .invalidArgument), (decide (imm.toInt ≤ 0), .invalidArgument)]
    (fun s => s.createEngine a imm) s

/-- `CFGSTR[j][lo+n-1:lo] <- v`. -/
def State.setConfigField {n : Nat} (s : State) (j : Fin 4) (lo : Nat) (v : BitVec n) : State :=
  { s with cfgstr := s.cfgstr.set j (insertField s.cfgstr[j] lo v) }

/-- SETSCHEMA (42_config.md R191). -/
def execSetschema (addr len : Addr) (s : State) : Host.Outcome State Fault Refusal :=
  runCommand (.setschema addr len) [notCreated s, lengthNot len 4, outOfRange s addr 4]
    (fun s => s.setConfigField 0 0 ((leWord (s.memRead addr.toNat 4)).extractLsb' 0 32)) s

/-- SETVER (42_config.md R192). -/
def execSetver (imm : BitVec 32) (s : State) : Host.Outcome State Fault Refusal :=
  runCommand (.setver imm) [notCreated s, (decide (3 < imm.toNat), .invalidArgument)]
    (fun s => s.setConfigField 0 32 (imm.extractLsb' 0 8)) s

/-- SETLEAF (42_config.md R193). -/
def execSetleaf (a : BitVec 8) (s : State) : Host.Outcome State Fault Refusal :=
  runCommand (.setleaf a) [notCreated s] (fun s => s.setConfigField 2 0 a) s

/-- SETFAN (42_config.md R194). -/
def execSetfan (a : BitVec 8) (s : State) : Host.Outcome State Fault Refusal :=
  runCommand (.setfan a) [notCreated s] (fun s => s.setConfigField 2 8 a) s

/-- SETHEIGHT (42_config.md R195). -/
def execSetheight (a : BitVec 8) (s : State) : Host.Outcome State Fault Refusal :=
  runCommand (.setheight a) [notCreated s, (a == 1, .invalidArgument)] (fun s => s.setConfigField 2 16 a) s

/-- GENCFG (42_config.md R196). -/
def execGencfg (a : BitVec 8) (s : State) : Host.Outcome State Fault Refusal :=
  runCommand (.gencfg a) [illegalWhen (decide (1 < a.toNat)), notCreated s, treeConfigured s]
    (fun s => if a = 0 then s.genConfig s.zeroKey else s.genConfig s.chainWords) s

end Sys2Proof.Machine
end

