-- ==== Sys2Proof/Machine/Mac.lean ====
section
/-! DEFINITION. The MAC key command (45_mac.md R270 to R274). -/

namespace Sys2Proof.Machine

/-- MACKEY's writes (45_mac.md R273): an empty key gives the plain configuration value (R274); any other key is hashed as one
UBI call of type Key from the zero state (R270), and the result keys the configuration (R271). -/
def State.keyMac (s : State) (key : List Byte) : State :=
  if key = [] then (s.genConfig s.zeroKey).initNormal
  else
    let s := (s.startKeyHash.appendBytes key).finish
    (s.genConfig s.chainWords).initNormal

/-- MACKEY (45_mac.md R273). -/
def execMackey (addr len : Addr) (s : State) : Host.Outcome State Fault Refusal :=
  runCommand (.mackey addr len) [notCreated s, treeConfigured s, outOfRange s addr len.toNat]
    (fun s => s.keyMac (s.memRead addr.toNat len.toNat)) s

end Sys2Proof.Machine
end

