-- ==== Sys2Proof/Machine/Output.lean ====
section
/-! DEFINITION. The output command (44_output.md R255). -/

namespace Sys2Proof.Machine

/-- DOFINAL's writes (44_output.md R255): the last block, the digest under the resulting chaining value, then InitNormal. The
chunks of R255 stand one after the other from ADDR on, so they are the one byte string of R252. PHASE is FINALIZED
while the output stage runs and ACCUM at the end (10_state.md R27). -/
def State.finalize (s : State) (addr : Nat) : State :=
  let s := { s.finish with phase := .finalized }
  let s := s.memWrite addr (digest s.words s.chainWords s.digestBytes)
  { s.initNormal with phase := .accum }

/-- DOFINAL (44_output.md R255). -/
def execDofinal (addr : Addr) (s : State) : Host.Outcome State Fault Refusal :=
  runCommand (.dofinal addr) [notCreated s, outOfRange s addr s.digestBytes] (fun s => s.finalize addr.toNat) s

end Sys2Proof.Machine
end

