-- ==== Sys2Proof/Machine/RawCipher.lean ====
section
/-! DEFINITION. The raw-cipher commands (40_threefish.md R125 to R127). -/

namespace Sys2Proof.Machine

/-- TFKEY (40_threefish.md R125). -/
def execTfkey (addr len : Addr) (s : State) : Host.Outcome State Fault Refusal :=
  runCommand (.tfkey addr len) [notCreated s, lengthNot len s.blockBytes, outOfRange s addr s.blockBytes]
    (fun s => { s with tfk := putFirst (s.memWords addr.toNat s.words) s.tfk }) s

/-- TFTWEAK (40_threefish.md R126). -/
def execTftweak (addr len : Addr) (s : State) : Host.Outcome State Fault Refusal :=
  runCommand (.tftweak addr len) [notCreated s, lengthNot len 16, outOfRange s addr 16]
    (fun s => { s with tft := putFirst (s.memWords addr.toNat 2) s.tft }) s

/-- The raw-cipher ciphertext of the block at a DMEM address, under TFK and TFT as they stand (40_threefish.md R127). -/
def State.rawCiphertext (s : State) (addr : Nat) : List Word :=
  threefish s.words (takeFirst s.words s.tfk) s.tft[0] s.tft[1] (s.memWords addr s.words)

/-- TFENC (40_threefish.md R127): no feed-forward, in place. -/
def execTfenc (addr : Addr) (s : State) : Host.Outcome State Fault Refusal :=
  runCommand (.tfenc addr) [notCreated s, outOfRange s addr s.blockBytes]
    (fun s => s.memWrite addr.toNat (leBytes (s.rawCiphertext addr.toNat))) s

end Sys2Proof.Machine
end

