-- ==== Sys2Proof/Machine/Sequencer.lean ====
section
/-! DEFINITION. The sequencer's commands HALT and NOP (46_sequencer.md R291, R292). -/

namespace Sys2Proof.Machine

/-- HALT (46_sequencer.md R291): no engine register changes; the run ends and PC points after the HALT. -/
def execHalt (s : State) : Host.Outcome State Fault Refusal := runCommand .halt [] (fun s => s.haltRun) s

/-- NOP (46_sequencer.md R292): only PC advances. -/
def execNop (s : State) : Host.Outcome State Fault Refusal := runCommand .nop [] (fun s => s) s

end Sys2Proof.Machine
end

