-- ==== Sys2Proof/Machine/Tweak.lean ====
section
/-! DEFINITION. The tweak register's commands (41_tweak.md R160 to R164). -/

namespace Sys2Proof.Machine

/-- TWSTART (41_tweak.md R160). FILL stays, also when it is not 0, as R160 says; 43_ubi.md R216 would have FILL = 0 after a
StartType. That R160 is followed is the model's, DESIGN CHOICE (log 16). -/
def execTwstart (a : BitVec 8) (s : State) : Host.Outcome State Fault Refusal :=
  runCommand (.twstart a) [notCreated s, (!blockTypes.contains a, .invalidArgument)] (fun s => s.startType a) s

/-- The bit of T1 that TWFLAG's selector names: 0 FIRST, 1 FINAL, 2 BITPAD (41_tweak.md R161). -/
def flagBit (a : BitVec 8) : Nat := if a = 0 then 62 else if a = 1 then 63 else 55

/-- TWFLAG (41_tweak.md R161). -/
def execTwflag (a : BitVec 8) (imm : BitVec 32) (s : State) : Host.Outcome State Fault Refusal :=
  runCommand (.twflag a imm)
    [illegalWhen (decide (2 < a.toNat) || decide (1 < imm.toNat)), notCreated s]
    (fun s => s.setTweakBit (flagBit a) (imm.getLsbD 0)) s

/-- TWLEVEL (41_tweak.md R162). -/
def execTwlevel (a : BitVec 8) (s : State) : Host.Outcome State Fault Refusal :=
  runCommand (.twlevel a) [notCreated s, (decide (63 < a.toNat), .invalidArgument)]
    (fun s => s.setTreeLevel (a.extractLsb' 0 7)) s

/-- TWADD (41_tweak.md R163). -/
def execTwadd (imm : BitVec 32) (s : State) : Host.Outcome State Fault Refusal :=
  runCommand (.twadd imm) [notCreated s] (fun s => s.addPos imm.toNat) s

/-- STTWEAK (41_tweak.md R164). -/
def execSttweak (addr len : Addr) (s : State) : Host.Outcome State Fault Refusal :=
  runCommand (.sttweak addr len) [notCreated s, lengthNot len 16, outOfRange s addr 16]
    (fun s => s.memWrite addr.toNat (leBytes [s.t0, s.t1])) s

end Sys2Proof.Machine
end

