-- ==== Sys2Proof/Machine/Ubi.lean ====
section
/-! DEFINITION. The UBI engine's commands (43_ubi.md R220 to R225). -/

namespace Sys2Proof.Machine

/-- A fresh Message block under the chaining value `ws`: STATE[0..Nw-1] <- ws, StartType(Message), FILL <- 0 (43_ubi.md R220,
R221). -/
def State.restartWith (s : State) (ws : List Word) : State :=
  { s.startType 48 with chain := putFirst ws s.chain, fill := 0 }

/-- INIT's four modes (43_ubi.md R220): 0 Normal, 1 ZeroedState, 2 ChainedState, 3 ChainedConfig. -/
def State.initMode (s : State) (a : BitVec 8) : State :=
  if a = 0 then s.initNormal
  else if a = 1 then s.restartWith s.zeroKey
  else if a = 2 then { s.startType 48 with fill := 0 }
  else (s.genConfig s.chainWords).initNormal

/-- INIT (43_ubi.md R220). -/
def execInit (a : BitVec 8) (s : State) : Host.Outcome State Fault Refusal :=
  runCommand (.init a)
    [illegalWhen (decide (3 < a.toNat)), notCreated s, (a == 3 && (treeConfigured s).1, .unsupported)]
    (fun s => s.initMode a) s

/-- LDSTATE (43_ubi.md R221). -/
def execLdstate (addr len : Addr) (s : State) : Host.Outcome State Fault Refusal :=
  runCommand (.ldstate addr len) [notCreated s, lengthNot len s.blockBytes, outOfRange s addr s.blockBytes]
    (fun s => s.restartWith (s.memWords addr.toNat s.words)) s

/-- STSTATE (43_ubi.md R222). -/
def execStstate (addr len : Addr) (s : State) : Host.Outcome State Fault Refusal :=
  runCommand (.ststate addr len) [notCreated s, lengthNot len s.blockBytes, outOfRange s addr s.blockBytes]
    (fun s => s.memWrite addr.toNat (leBytes s.chainWords)) s

/-- UPDATE (43_ubi.md R223). -/
def execUpdate (addr len : Addr) (s : State) : Host.Outcome State Fault Refusal :=
  runCommand (.update addr len) [notCreated s, outOfRange s addr len.toNat]
    (fun s => s.appendBytes (s.memRead addr.toNat len.toNat)) s

/-- UPDBITS' writes (43_ubi.md R224) for the `l` bits that `bs` holds. -/
def State.appendBits (s : State) (l : Nat) (bs : List Byte) : State :=
  if l % 8 = 0 then s.appendBytes bs
  else ((s.appendBytes bs).padBits (l % 8)).setTweakBit 55 true

/-- UPDBITS (43_ubi.md R224): `ceil(L/8)` bytes are read, which is `floor(L/8) + 1` when L is no multiple of 8. -/
def execUpdbits (addr len : Addr) (s : State) : Host.Outcome State Fault Refusal :=
  runCommand (.updbits addr len)
    [notCreated s, (s.bitpad, .invalidState), outOfRange s addr (bytesOfBits len.toNat)]
    (fun s => s.appendBits len.toNat (s.memRead addr.toNat (bytesOfBits len.toNat))) s

/-- UBIFIN (43_ubi.md R225). -/
def execUbifin (s : State) : Host.Outcome State Fault Refusal :=
  runCommand .ubifin [notCreated s] (fun s => s.finish) s

end Sys2Proof.Machine
end

