-- ==== Sys2Proof/Machine/Dispatch.lean ====
section
/-! DEFINITION. The dispatch: each command to its meaning (30_encoding.md R83). -/

namespace Sys2Proof.Machine

/-- The whole step of a decoded command: its effect and the PC's advance, or the error entry (46_sequencer.md R290). -/
def exec (i : Instr) (s : State) : Host.Outcome State Fault Refusal :=
  match i with
  | .halt => Sys2Proof.Machine.execHalt s
  | .nop => Sys2Proof.Machine.execNop s
  | .create a imm => Sys2Proof.Machine.execCreate a imm s
  | .setschema addr len => Sys2Proof.Machine.execSetschema addr len s
  | .setver imm => Sys2Proof.Machine.execSetver imm s
  | .setleaf a => Sys2Proof.Machine.execSetleaf a s
  | .setfan a => Sys2Proof.Machine.execSetfan a s
  | .setheight a => Sys2Proof.Machine.execSetheight a s
  | .gencfg a => Sys2Proof.Machine.execGencfg a s
  | .mackey addr len => Sys2Proof.Machine.execMackey addr len s
  | .init a => Sys2Proof.Machine.execInit a s
  | .ldstate addr len => Sys2Proof.Machine.execLdstate addr len s
  | .ststate addr len => Sys2Proof.Machine.execStstate addr len s
  | .update addr len => Sys2Proof.Machine.execUpdate addr len s
  | .updbits addr len => Sys2Proof.Machine.execUpdbits addr len s
  | .ubifin => Sys2Proof.Machine.execUbifin s
  | .dofinal addr => Sys2Proof.Machine.execDofinal addr s
  | .twstart a => Sys2Proof.Machine.execTwstart a s
  | .twflag a imm => Sys2Proof.Machine.execTwflag a imm s
  | .twlevel a => Sys2Proof.Machine.execTwlevel a s
  | .twadd imm => Sys2Proof.Machine.execTwadd imm s
  | .sttweak addr len => Sys2Proof.Machine.execSttweak addr len s
  | .tfkey addr len => Sys2Proof.Machine.execTfkey addr len s
  | .tftweak addr len => Sys2Proof.Machine.execTftweak addr len s
  | .tfenc addr => Sys2Proof.Machine.execTfenc addr s

end Sys2Proof.Machine
end

