-- ==== Sys2Proof/Machine/HostPort.lean ====
section
/-! DEFINITION. The host port (20_memory.md R67, R68): the CSR block (10_state.md R31 to R36), the DMEM window, and what a host
access does while BUSY = 1 (60_exceptions.md R313, 70_reset_and_hazards.md R344). -/

namespace Sys2Proof.Machine

/-- What a port offset names (20_memory.md R67). -/
inductive PortTarget where
  /-- A register of the CSR block, by its offset. -/
  | csr (off : Nat)
  /-- A byte address of DMEM. -/
  | dmem (addr : Nat)
  /-- Nothing: reads return 0, writes are ignored. -/
  | unmapped
deriving DecidableEq, Repr

/-- The host port map (20_memory.md R67). -/
def portTarget (dmemSize : Nat) (off : BitVec 25) : PortTarget :=
  if off.toNat < 0x1000 then .csr off.toNat
  else if off.toNat < 0x1000000 then .unmapped
  else if off.toNat - 0x1000000 < dmemSize then .dmem (off.toNat - 0x1000000)
  else .unmapped

/-- The widths and alignments of 20_memory.md R68: 8 bytes, aligned, in the CSR block; 1, 2, 4 or 8 bytes, naturally aligned,
elsewhere (for the unmapped offsets: DESIGN CHOICE, safe, log 10). -/
def accessInSpec (off : BitVec 25) (width : Nat) : Bool :=
  if off.toNat < 0x1000 then width == 8 && off.toNat % 8 == 0
  else [1, 2, 4, 8].contains width && off.toNat % width == 0

/-- Entry `i` of a register file as the host reads it; 0 past its end. -/
def wordAt {n : Nat} (v : Vector Word n) (i : Nat) : Word := v.toList.getD i 0

/-- IBUF word `i`, bytes 8i..8i+7 (10_state.md R25, R36). -/
def State.ibufWord (s : State) (i : Nat) : Word := leWord ((s.ibuf.toList.drop (8 * i)).take 8)

/-- The CSR map for reads (10_state.md R36), at an 8-byte-aligned offset. TFK, TFT and every reserved offset read 0. -/
def State.csrRead (s : State) (off : Nat) : Word :=
  if off = 0x000 then s.ctrlWord
  else if off = 0x008 then s.statusWord
  else if off = 0x010 then s.pc.setWidth 64
  else if off = 0x018 then s.errpc.setWidth 64
  else if off = 0x020 then s.errcmd
  else if off = 0x028 then s.outbits.setWidth 64
  else if off = 0x030 then s.fill.setWidth 64
  else if off = 0x038 then BitVec.ofNat 64 s.cfg.dmemSize
  else if off = 0x040 then s.t0
  else if off = 0x048 then s.t1
  else if 0x080 ≤ off ∧ off < 0x100 then wordAt s.chain ((off - 0x080) / 8)
  else if 0x100 ≤ off ∧ off < 0x120 then wordAt s.cfgstr ((off - 0x100) / 8)
  else if 0x180 ≤ off ∧ off < 0x200 then wordAt s.cfgval ((off - 0x180) / 8)
  else if 0x200 ≤ off ∧ off < 0x280 then s.ibufWord ((off - 0x200) / 8)
  else 0

/-- A host write to CTRL (10_state.md R32): SRST alone when its bit is set (70_reset_and_hazards.md R341); else the
enables, then GO, which is ignored while BUSY = 1 (46_sequencer.md R293). -/
def State.writeCtrl (s : State) (v : Word) : State :=
  if v.getLsbD 3 then s.resetRegisters
  else
    let s := { s with ieDone := v.getLsbD 1, ieErr := v.getLsbD 2 }
    if v.getLsbD 0 && !s.busy then s.startRun else s

/-- A host write to STATUS (10_state.md R33): writing 1 clears DONE or ERR. -/
def State.writeStatus (s : State) (v : Word) : State :=
  { s with done := s.done && !v.getLsbD 1, err := s.err && !v.getLsbD 2 }

/-- A host write to PC (10_state.md R31): `value[23:3] ‖ 000` while idle, ignored while BUSY = 1. -/
def State.writePc (s : State) (v : Word) : State :=
  if s.busy then s else { s with pc := v.extractLsb' 3 21 ++ 0#3 }

/-- The CSR map for writes (10_state.md R36): every other register is read-only and ignores them. -/
def State.csrWrite (s : State) (off : Nat) (v : Word) : State :=
  if off = 0x000 then s.writeCtrl v
  else if off = 0x008 then s.writeStatus v
  else if off = 0x010 then s.writePc v
  else s

/-- CTRL and STATUS, whose reads are exact at any time (60_exceptions.md R313). -/
def exactWhileBusy (t : PortTarget) : Bool := t == .csr 0x000 || t == .csr 0x008

/-- What a host read of `width` bytes returns when its result is defined (10_state.md R36; 20_memory.md R67, R68). -/
def State.portRead (s : State) (t : PortTarget) (width : Nat) : Word :=
  match t with
  | .csr off => s.csrRead off
  | .dmem a => leWord (s.memRead a width)
  | .unmapped => 0

/-- A host read (20_memory.md R67, R68, R72). While BUSY = 1 everything but CTRL and STATUS reads a free value
(70_reset_and_hazards.md R344, log 5). -/
def State.hostRead (s : State) (t : PortTarget) (width : Nat) : State :=
  if s.busy && !exactWhileBusy t then
    { s with
      hostData := leWord (wordBytes width (Config.busyReadValue s.freeCtr)), freeCtr := s.freeCtr + 1 }
  else { s with hostData := s.portRead t width }

/-- The free bytes that a hazardous write of `width` bytes leaves (70_reset_and_hazards.md R344, log 6). -/
def State.hazardBytes (s : State) (width : Nat) : List Byte :=
  (List.range width).map (fun j => Config.busyWriteByte (s.freeCtr + j))

/-- A host write (20_memory.md R67, R68, R72). While BUSY = 1 a DMEM write leaves free values in the written bytes
(70_reset_and_hazards.md R344, log 6); the CSR writes do what 60_exceptions.md R313 says at any time. -/
def State.hostWrite (s : State) (t : PortTarget) (width : Nat) (v : Word) : State :=
  match t with
  | .csr off => s.csrWrite off v
  | .dmem a =>
    if s.busy then { s.memWrite a (s.hazardBytes width) with freeCtr := s.freeCtr + width }
    else s.memWrite a (wordBytes width v)
  | .unmapped => s

/-- One host access (20_memory.md R67, R68). -/
def hostStep (a : HostAccess) (s : State) : Host.Outcome State Fault Refusal :=
  match a with
  | .read off width =>
    if accessInSpec off width then .next (s.hostRead (portTarget s.cfg.dmemSize off) width)
    else .refused .hostAccessOutsideSpec
  | .write off width v =>
    if accessInSpec off width then .next (s.hostWrite (portTarget s.cfg.dmemSize off) width v)
    else .refused .hostAccessOutsideSpec

end Sys2Proof.Machine
end

