-- ==== Sys2Proof/Machine/Sequencing.lean ====
section
/-! DEFINITION. The two agents' moves (00_scope.md R14): the sequencer's step (46_sequencer.md R290) and the turns between it
and the host (log 3). -/

namespace Sys2Proof.Machine

/-- One sequencer step, taken when BUSY = 1 (46_sequencer.md R290); while BUSY = 0 the sequencer is idle and nothing changes
(70_reset_and_hazards.md R342; DEDUCED, safe, log 11). -/
def engineStep (s : State) : Host.Outcome State Fault Refusal :=
  if s.busy then
    match s.fetchBytes with
    | none => .next (s.takeError .memFault 0)
    | some bs =>
      match decodeBytes bs with
      | .error _ => .next (s.takeError .illegalCommand (leWord bs))
      | .ok i => exec i s
  else .next s

/-- The step of the whole machine: the next turn's agent moves; with no turn scheduled the sequencer does (log 3). -/
def turnStep (s : State) : Host.Outcome State Fault Refusal :=
  match s.turns with
  | [] => engineStep s
  | .engine :: rest => engineStep { s with turns := rest }
  | .host a :: rest => hostStep a { s with turns := rest }
  | .hardwareReset :: rest => .next ({ s with turns := rest } : State).resetRegisters

/-- The PC that `placeInstr` fetches from: PC itself, or 0 when the fetch at PC would lie outside DMEM. -/
def fetchablePc (s : State) : Addr := if s.cfg.dmemSize < s.pc.toNat + 8 then 0 else s.pc

/-- The state with an instruction's bytes where the next step fetches, that step being the sequencer's (log 7): the bytes at
PC, BUSY = 1, and the sequencer's turn before any scheduled one. -/
def placeInstr (s : State) (bs : List Byte) : State :=
  { s with
    dmem := s.dmem.writeBytes (fetchablePc s).toNat bs
    pc := fetchablePc s
    busy := true
    turns := if s.turns = [] then [] else .engine :: s.turns }

end Sys2Proof.Machine
end

