-- ==== Sys2Proof/Machine/Step.lean ====
section
/-! DEFINITION. The machine's step, and the placing of an instruction where it fetches. -/

namespace Sys2Proof.Machine

/-- One step: the sequencer's (46_sequencer.md R290), the host's (20_memory.md R67) or a hardware reset
(70_reset_and_hazards.md R340), as the scheduled turns say. -/
def step (s : State) : Host.Outcome State Fault Refusal := turnStep s

/-- `s` with the instruction whose bits are `w` (numbered as spec/opcode_table.json numbers them, the bits from `nbits` on
0) stored where the next step fetches and runs it (log 7). -/
def State.withFetchWord (s : State) (nbits w : Nat) : State := placeInstr s (tableWordBytes nbits w)

end Sys2Proof.Machine
end

