-- ==== Sys2Proof/Safety.lean ====
section
/-! DEFINITION. What counts as a legal state and a safe run, in the terms that claims use: the invariants that the rules
imply at every command boundary, the power-up states, the states that runs reach, and runs without an error. -/

namespace Sys2Proof.Machine

/-- DMEM is canonical and lies within a legal DMEM_SIZE (00_scope.md R8, 20_memory.md R61). -/
structure DmemInv (s : State) : Prop where
  cfgValid : s.cfg.Valid
  canonical : s.dmem.wf
  inRange : ∀ c ∈ s.dmem, c.1 < s.cfg.dmemSize

/-- The sequencer's registers: PC and ERRPC are 8-byte aligned (10_state.md R31); DONE and ERR are both 0 while BUSY = 1
(60_exceptions.md R313) and never both 1 (46_sequencer.md R295); codes 7 to 255 are never written (60_exceptions.md R300). -/
structure SequencerInv (s : State) : Prop where
  pcAligned : s.pc.toNat % 8 = 0
  errpcAligned : s.errpc.toNat % 8 = 0
  busyClear : s.busy = true → s.done = false ∧ s.err = false
  oneEnd : ¬ (s.done = true ∧ s.err = true)
  errcodeLegal : s.errcode.toNat ≤ 6

/-- The engine's registers before any CREATE succeeds: their reset values (10_state.md R20, R21, R27). -/
structure UncreatedInv (s : State) : Prop where
  nw : s.nw = 0
  outbits : s.outbits = 0
  t0 : s.t0 = 0
  t1 : s.t1 = 0
  cfgstr : s.cfgstr = Vector.replicate 4 0
  tft : s.tft = Vector.replicate 2 0

/-- The engine's registers after a CREATE (10_state.md R21 to R28, 41_tweak.md R150, R151, 42_config.md R180, 43_ubi.md
R216). -/
structure CreatedInv (s : State) : Prop where
  sizeLegal : s.nw ∈ stateSizes
  outbitsLegal : 1 ≤ s.outbits.toNat ∧ s.outbits.toNat < 2 ^ 31
  typeLegal : s.blockType.setWidth 8 ∈ blockTypes
  levelLegal : s.treeLevel.toNat ≤ 63
  tweakReserved : s.t1.extractLsb' 32 16 = 0
  versionLegal : (s.cfgstr[0].extractLsb' 32 8).toNat ≤ 3
  configReserved : s.cfgstr[0].extractLsb' 40 24 = 0 ∧ s.cfgstr[2].extractLsb' 24 40 = 0 ∧ s.cfgstr[3] = 0
  outlen : s.cfgstr[1] = s.outbits.setWidth 64
  heightLegal : s.cfgstr[2].extractLsb' 16 8 ≠ 1

/-- The engine's registers at a command boundary: PHASE is never FINALIZED (10_state.md R27), FILL ≤ Nb (R26), and what lies
beyond the state size is 0 (R23, R25, R29, R30). The clause of 43_ubi.md R216 that FILL = 0 until a byte is appended after a
StartType is left out: TWSTART keeps FILL (41_tweak.md R160; DESIGN CHOICE, log 16). -/
structure EngineInv (s : State) : Prop where
  phaseLegal : s.phase ≠ .finalized
  uncreated : s.phase = .uninit → UncreatedInv s
  created : s.phase = .accum → CreatedInv s
  fillLegal : s.fill.toNat ≤ s.blockBytes
  chainTail : ∀ i, s.words ≤ i → s.chain.toList.getD i 0 = 0
  cfgvalTail : ∀ i, s.words ≤ i → s.cfgval.toList.getD i 0 = 0
  tfkTail : ∀ i, s.words ≤ i → s.tfk.toList.getD i 0 = 0
  ibufTail : ∀ i, s.blockBytes ≤ i → s.ibuf.toList.getD i 0 = 0

/-- A legal state: all three. -/
structure LegalState (s : State) : Prop where
  dmem : DmemInv s
  sequencer : SequencerInv s
  engine : EngineInv s

/-- A power-up state (70_reset_and_hazards.md R340): every register at its reset value; any legal DMEM_SIZE, any DMEM
content, any later turns of the host. `State.reset` is one of them. -/
def PowerUp (s : State) : Prop :=
  DmemInv s ∧ s = { State.reset with cfg := s.cfg, dmem := s.dmem, turns := s.turns }

/-- The states that the machine reaches from power-up. -/
inductive Reachable : State → Prop where
  | powerUp {s : State} : PowerUp s → Reachable s
  | step {s t : State} : Reachable s → step s = .next t → Reachable t

/-- A run of `n` steps in which every step answers a next state and no error is recorded: what a safe run is. -/
def RunsClean : Nat → State → Prop
  | 0, s => s.err = false
  | n + 1, s => s.err = false ∧ ∃ t, step s = .next t ∧ RunsClean n t

end Sys2Proof.Machine
end

