-- ==== Sys2Proof/Certificates/Slice0/Obligations.lean ====
section
/-! DEFINITION. The statements for the provers. Each docstring names the rule it formalises. The helpers under Claims say in
plain arithmetic what the rules say: the error entry, the little-endian conversions of 20_memory.md R63, a written bit
field, the error table of 60_exceptions.md R304, the legal words of 30_encoding.md R85. -/

namespace Sys2Proof.Claims

open Sys2Proof.Machine

/-- The error entry of 60_exceptions.md R302, spelled out. -/
def errorEntry (s : State) (code : BitVec 8) (word : Word) : State :=
  { s with busy := false, err := true, errcode := code, errpc := s.pc, errcmd := word }

/-- The bytes of words as 20_memory.md R63 writes them: byte `8i+j` is bits `8j+7:8j` of word `i`. -/
def bytesOfWords (ws : List Word) : List Byte :=
  (List.range (8 * ws.length)).map fun n => BitVec.ofNat 8 ((ws.getD (n / 8) 0).toNat / 2 ^ (8 * (n % 8)))

/-- The word at an address as 20_memory.md R63 writes it: the sum of `b[j] * 2^(8j)`. -/
def wordAtAddr (m : Memory) (a : Nat) : Word :=
  BitVec.ofNat 64 ((List.range 8).map fun j => (m.read (a + j)).toNat * 2 ^ (8 * j)).sum

/-- `n` words from an address on. -/
def wordsAtAddr (m : Memory) (a n : Nat) : List Word := (List.range n).map fun i => wordAtAddr m (a + 8 * i)

/-- `m'` is `m` with the bytes `bs` at `a`: each stored byte reads back, every other byte reads as before. -/
def storedAt (m m' : Memory) (a : Nat) (bs : List Byte) : Prop :=
  (∀ j, j < bs.length → m'.read (a + j) = bs.getD j 0) ∧
  (∀ x, (x < a ∨ a + bs.length ≤ x) → m'.read x = m.read x)

/-- `new` is `old` with the `n` bits from `lo` on holding `v`, and every other bit as it was. -/
def fieldWritten (old new : Word) (lo n v : Nat) : Prop :=
  new.toNat / 2 ^ lo % 2 ^ n = v ∧ ∀ i, (i < lo ∨ lo + n ≤ i) → new.getLsbD i = old.getLsbD i

/-- `new` holds `ws` in its first entries and is `old` from there on. -/
def firstWordsAre (old new : Vector Word 16) (ws : List Word) : Prop :=
  ∀ i, i < 16 → new.toList.getD i 0 = if i < ws.length then ws.getD i 0 else old.toList.getD i 0

/-- The UBI feed-forward E(K, T, P) xor P (43_ubi.md R210). -/
def ubi (nw : Nat) (key : List Word) (t0 t1 : Word) (p : List Word) : List Word :=
  List.zipWith (· ^^^ ·) (threefish nw key t0 t1 p) p

/-- The first Nw words of STATE. -/
def chainOf (s : State) : List Word := s.chain.toList.take s.nw.toNat

/-- The configuration value of a configuration string under a key, the words from Nw on 0 (42_config.md R182 to R184). -/
def configValue (nw : Nat) (cfgstr : Vector Word 4) (key : List Word) : List Word :=
  let cb := cfgstr.toList ++ List.replicate (nw - 4) 0
  ubi nw key 32 0xC400000000000000 cb ++ List.replicate (16 - nw) 0

/-- Output block `ctr` under the chaining value `g`, as bytes (44_output.md R251). -/
def outputBlock (nw : Nat) (g : List Word) (ctr : Nat) : List Byte :=
  bytesOfWords (ubi nw g 8 0xFF00000000000000 (BitVec.ofNat 64 ctr :: List.replicate (nw - 1) 0))

/-- T1 right after StartType(Message): TYPE = 48, FIRST = 1 (41_tweak.md R153). -/
def messageT1 : Word := 0x7000000000000000

/-- Running commands one after the other; none when one does not answer a next state. -/
def runAll : List Instr → State → Option State
  | [], s => some s
  | i :: is, s =>
    match exec i s with
    | .next t => runAll is t
    | _ => none

/-- UPDATEs of pieces of these lengths, one after the other from an address on. -/
def updatesFrom : Nat → List Nat → List Instr
  | _, [] => []
  | a, n :: ns => .update (BitVec.ofNat 24 a) (BitVec.ofNat 24 n) :: updatesFrom (a + n) ns

/-- The opcodes, fields and field values that 30_encoding.md R83, R85 and R87 allow, over the numbers of the fields. -/
def legalFields (op a z imm len : Nat) : Bool :=
  if op ∈ [0x00, 0x01, 0x2A] then a == 0 && z == 0 && imm == 0
  else if op = 0x10 then z == 0
  else if op ∈ [0x12, 0x33] then a == 0 && z == 0
  else if op ∈ [0x13, 0x14, 0x15, 0x30, 0x32] then z == 0 && imm == 0
  else if op = 0x16 then z == 0 && imm == 0 && decide (a ≤ 1)
  else if op = 0x20 then z == 0 && imm == 0 && decide (a ≤ 3)
  else if op = 0x31 then z == 0 && decide (a ≤ 2) && decide (imm ≤ 1)
  else if op ∈ [0x11, 0x18, 0x21, 0x22, 0x28, 0x29, 0x34, 0x38, 0x39] then a == 0
  else if op ∈ [0x2B, 0x3A] then a == 0 && len == 0
  else false

/-- The same over a word: its fields by division. -/
def legalWord (w : Word) : Bool :=
  legalFields (w.toNat % 2 ^ 8) (w.toNat / 2 ^ 8 % 2 ^ 8) (w.toNat / 2 ^ 16 % 2 ^ 16) (w.toNat / 2 ^ 32)
    (w.toNat / 2 ^ 40)

/-- The commands that run before a CREATE (10_state.md R27). -/
def runsUncreated : Instr → Bool
  | .halt | .nop | .create .. => true
  | _ => false

/-- The error of a command of legal encoding, by the columns U, S, A, X and M of 60_exceptions.md R304 in the priority of
R303; none when every check passes. -/
def expectedError (i : Instr) (s : State) : Option (BitVec 8) :=
  let past (addr : Addr) (n : Nat) : Bool := decide (s.cfg.dmemSize < addr.toNat + n)
  let nb := 8 * s.nw.toNat
  let tree : Bool := s.cfgstr[2] != 0
  if !runsUncreated i && s.phase == .uninit then some 6
  else match i with
    | .create a imm =>
      if a ≠ 4 ∧ a ≠ 8 ∧ a ≠ 16 then some 1 else if imm.toNat = 0 ∨ 2 ^ 31 ≤ imm.toNat then some 1 else none
    | .setschema addr len => if len.toNat ≠ 4 then some 1 else if past addr 4 then some 5 else none
    | .setver imm => if 3 < imm.toNat then some 1 else none
    | .setheight a => if a = 1 then some 1 else none
    | .gencfg _ => if tree then some 3 else none
    | .mackey addr len => if tree then some 3 else if past addr len.toNat then some 5 else none
    | .init a => if a = 3 ∧ tree = true then some 3 else none
    | .ldstate addr len | .ststate addr len | .tfkey addr len =>
      if len.toNat ≠ nb then some 1 else if past addr nb then some 5 else none
    | .update addr len => if past addr len.toNat then some 5 else none
    | .updbits addr len =>
      if s.t1.getLsbD 55 then some 2 else if past addr ((len.toNat + 7) / 8) then some 5 else none
    | .dofinal addr => if past addr ((s.outbits.toNat + 7) / 8) then some 5 else none
    | .twstart a => if a.toNat ∈ [0, 4, 8, 12, 16, 20, 48, 63] then none else some 1
    | .twlevel a => if 63 < a.toNat then some 1 else none
    | .sttweak addr len | .tftweak addr len =>
      if len.toNat ≠ 16 then some 1 else if past addr 16 then some 5 else none
    | .tfenc addr => if past addr nb then some 5 else none
    | .halt | .nop | .setleaf _ | .setfan _ | .ubifin | .twflag _ _ | .twadd _ => none

/-- Two states that differ at most in IBUF, and there only from FILL on (10_state.md R25). -/
def sameButStaleBytes (s t : State) : Prop :=
  t = { s with ibuf := t.ibuf } ∧ ∀ i, i < s.fill.toNat → s.ibuf.toList.getD i 0 = t.ibuf.toList.getD i 0

/-- The commands that use the raw-cipher registers (10_state.md R30). -/
def usesRawCipher : Instr → Bool
  | .create .. | .tfkey .. | .tftweak .. | .tfenc .. => true
  | _ => false

/-- The commands that may write DMEM (20_memory.md R74). -/
def mayStore : Instr → Bool
  | .ststate .. | .sttweak .. | .dofinal .. | .tfenc .. => true
  | _ => false

/-- The commands that may write CFGSTR (42_config.md R180). -/
def mayConfigure : Instr → Bool
  | .create .. | .setschema .. | .setver .. | .setleaf .. | .setfan .. | .setheight .. => true
  | _ => false

/-- The commands that may write CFGVAL (45_mac.md R272, 42_config.md R190). -/
def mayDeriveConfig : Instr → Bool
  | .create .. | .gencfg .. | .mackey .. => true
  | .init a => a == 3
  | _ => false

/-- The commands that leave the hash in progress alone: STATE, T0, T1, IBUF and FILL. -/
def leavesHash : Instr → Bool
  | .halt | .nop | .setschema .. | .setver .. | .setleaf .. | .setfan .. | .setheight .. | .gencfg .. | .ststate ..
  | .sttweak .. | .tfkey .. | .tftweak .. | .tfenc .. => true
  | _ => false

/-- The next turn is the sequencer's (log 3): one is scheduled, or none is and the sequencer runs on. -/
def sequencersTurn (s : State) : Prop := s.turns = [] ∨ ∃ rest, s.turns = .engine :: rest

/-- The state with its next turn, if one is scheduled, used up. -/
def turnUsed (s : State) : State := { s with turns := s.turns.tail }

/-- `n` words whose little-endian bytes are `f 0`, `f 1`, ... modulo 256 (20_memory.md R63). -/
def wordsOfBytes (n : Nat) (f : Nat → Nat) : List Word :=
  (List.range n).map fun i => BitVec.ofNat 64 ((List.range 8).map fun j => f (8 * i + j) % 256 * 2 ^ (8 * j)).sum

/-- The inputs of the known answers E-4 to E-6 (95_test_vectors.md section 2) for `n` words: key bytes 10 11 12 ..., tweak bytes
00 01 ... 0F, plaintext bytes FF FE FD ... -/
def countingAnswer (n : Nat) : List Word :=
  threefish n (wordsOfBytes n (0x10 + ·)) 0x0706050403020100 0x0F0E0D0C0B0A0908 (wordsOfBytes n (0xFF - ·))

/-- The inputs of the known answers E-1 to E-3 for `n` words: key, tweak and plaintext zero. -/
def zeroAnswer (n : Nat) : List Word := threefish n (List.replicate n 0) 0 0 (List.replicate n 0)

/-- A host write turn at the head of the turns. -/
def writes (s : State) (off : BitVec 25) (width : Nat) (v : Word) (rest : List Turn) : Prop :=
  s.turns = .host (.write off width v) :: rest

/-- A host read turn at the head of the turns. -/
def reads (s : State) (off : BitVec 25) (width : Nat) (rest : List Turn) : Prop :=
  s.turns = .host (.read off width) :: rest

end Sys2Proof.Claims

open Sys2Proof Sys2Proof.Machine Sys2Proof.Claims

/-! ### Encoding -/

/-- 30_encoding.md R80 to R85: every command with legal fields survives encoding and decoding, every operand at every value. -/
def Obligations.DecodeOfEncodeIsTheCommand : Prop :=
  ∀ i : Instr, i.wellFormed = true → decode (encode i) = .ok i

/-- 30_encoding.md R80 to R87: a word that decodes is the encoding of its command, so no two words are one command and no
bit of a word is dropped; and its command is well formed. -/
def Obligations.EncodeOfDecodeIsTheWord : Prop :=
  ∀ (w : Word) (i : Instr), decode w = .ok i → encode i = w ∧ i.wellFormed = true

/-- The words of program P1, P3, P4 and P5 (95_test_vectors.md section 4) as their DMEM bytes decode to their commands. -/
def Obligations.ProgramWordsDecodeToTheirCommands : Prop :=
  decodeBytes [0x10, 0x04, 0x00, 0x00, 0x00, 0x01, 0x00, 0x00] = .ok (.create 4 256) ∧
  decodeBytes [0x28, 0x00, 0x00, 0x08, 0x00, 0x01, 0x00, 0x00] = .ok (.update 0x800 1) ∧
  decodeBytes [0x2B, 0x00, 0x00, 0x10, 0x00, 0x00, 0x00, 0x00] = .ok (.dofinal 0x1000) ∧
  decodeBytes [0x34, 0x00, 0x00, 0x11, 0x00, 0x10, 0x00, 0x00] = .ok (.sttweak 0x1100 16) ∧
  decodeBytes [0x29, 0x00, 0x00, 0x08, 0x00, 0x03, 0x00, 0x00] = .ok (.updbits 0x800 3) ∧
  decodeBytes [0x30, 0x08, 0x00, 0x00, 0x00, 0x00, 0x00, 0x00] = .ok (.twstart 8) ∧
  decodeBytes [0x38, 0x00, 0x00, 0x08, 0x00, 0x20, 0x00, 0x00] = .ok (.tfkey 0x800 32)

/-- 30_encoding.md R87: every fetched word is a command with legal fields, which runs, or takes ILLEGAL_COMMAND; on a scheduled
turn of the sequencer as when it runs on. -/
def Obligations.EveryFetchedWordRunsOrIsIllegal : Prop :=
  ∀ s : State, sequencersTurn s → s.busy = true → s.pc.toNat + 8 ≤ s.cfg.dmemSize →
    let w := wordAtAddr s.dmem s.pc.toNat
    (legalWord w = false → step s = .next (errorEntry (turnUsed s) 4 w)) ∧
    (legalWord w = true → ∃ i, decode w = .ok i ∧ step s = exec i (turnUsed s))

/-! ### The sequencer -/

/-- 46_sequencer.md R290: when the eight bytes at PC decode to a command, the sequencer's step is exec of that command (which
advances PC or takes the error entry itself), whether the turn is scheduled or the sequencer runs on. -/
def Obligations.StepRunsTheDecodedCommand : Prop :=
  ∀ (s : State) (i : Instr), s.busy = true → s.pc.toNat + 8 ≤ s.cfg.dmemSize →
    decodeBytes (s.dmem.readBytes s.pc.toNat 8) = .ok i →
    (s.turns = [] → step s = exec i s) ∧
    (∀ rest, s.turns = .engine :: rest → step s = exec i { s with turns := rest })

/-- 46_sequencer.md R290, 60_exceptions.md R302: a fetch that reaches past DMEM takes MEM_FAULT with ERRCMD = 0. -/
def Obligations.FetchOutsideDmemTakesMemFault : Prop :=
  ∀ s : State, sequencersTurn s → s.busy = true → s.cfg.dmemSize < s.pc.toNat + 8 →
    step s = .next (errorEntry (turnUsed s) 5 0)

/-- 70_reset_and_hazards.md R342: while BUSY = 0 the sequencer changes nothing; the engine never starts by itself. -/
def Obligations.IdleSequencerChangesNothing : Prop :=
  ∀ s : State, s.busy = false →
    (s.turns = [] → step s = .next s) ∧
    (∀ rest, s.turns = .engine :: rest → step s = .next { s with turns := rest })

/-- 46_sequencer.md R291, R292: the only HALT word is 0 and the only NOP word is 1; HALT ends the run with DONE and PC after
it, NOP only advances PC, in every PHASE; their opcodes with another field nonzero take ILLEGAL_COMMAND. -/
def Obligations.HaltEndsTheRunAndNopOnlyAdvances : Prop :=
  (∀ w : Word, (decode w = .ok .halt ↔ w = 0) ∧ (decode w = .ok .nop ↔ w = 1)) ∧
  ∀ s : State,
    exec .halt s = .next { s with pc := s.pc + 8, busy := false, done := true } ∧
    exec .nop s = .next { s with pc := s.pc + 8 } ∧
    (sequencersTurn s → s.busy = true → s.pc.toNat + 8 ≤ s.cfg.dmemSize →
      (wordAtAddr s.dmem s.pc.toNat).toNat % 2 ^ 8 ≤ 1 → 1 < (wordAtAddr s.dmem s.pc.toNat).toNat →
      step s = .next (errorEntry (turnUsed s) 4 (wordAtAddr s.dmem s.pc.toNat)))

/-- 46_sequencer.md R294: a sequencer step goes to the next address, or stops where it is with an error. -/
def Obligations.NoCommandBranches : Prop :=
  ∀ s t : State, sequencersTurn s → s.busy = true → step s = .next t →
    t.pc = s.pc + 8 ∨ (t.pc = s.pc ∧ t.busy = false ∧ t.err = true)

/-- 46_sequencer.md R290 ("A command never reads PC"): at another PC a command does the same, and PC and ERRPC follow. -/
def Obligations.CommandsNeverReadPc : Prop :=
  ∀ (i : Instr) (s : State) (p : Addr), ∃ t, exec i s = .next t ∧
    exec i { s with pc := p } =
      .next (if t.pc = s.pc then { t with pc := p, errpc := p } else { t with pc := p + 8 })

/-- 70_reset_and_hazards.md R351: the step in which the sequencer's BUSY falls sets DONE (the word was HALT) or ERR. -/
def Obligations.BusyFallsWithDoneOrErr : Prop :=
  ∀ s t : State, sequencersTurn s → s.busy = true → step s = .next t → t.busy = false →
    (t.done = true ∧ wordAtAddr s.dmem s.pc.toNat = 0 ∧ t.pc = s.pc + 8 ∧ t.err = s.err) ∨
    (t.err = true ∧ t.errcode ≠ 0 ∧ t.errpc = s.pc ∧ t.done = s.done)

/-- The turns (log 3, the model's choice for 00_scope.md R14 and 46_sequencer.md R290): a scheduled host access or hardware
reset happens between two sequencer steps and is used up. -/
def Obligations.ScheduledTurnsAreTakenInOrder : Prop :=
  ∀ (s : State) (rest : List Turn),
    (∀ a, s.turns = .host a :: rest → step s = hostStep a { s with turns := rest }) ∧
    (s.turns = .hardwareReset :: rest → step s = .next { State.reset with
      cfg := s.cfg, dmem := s.dmem, turns := rest, hostData := s.hostData, freeCtr := s.freeCtr })

/-! ### Errors -/

/-- 60_exceptions.md R301 (with the table R304 in the priority R303): a command of legal encoding takes exactly the error the
table gives, changing nothing but the error record; where the table gives none it completes and leaves the error record. -/
def Obligations.ErrorsAreTheTablesAndChangeOnlyTheRecord : Prop :=
  ∀ (i : Instr) (s : State), i.wellFormed = true →
    match expectedError i s with
    | some code => exec i s = .next (errorEntry s code (encode i))
    | none => ∃ t, exec i s = .next t ∧ t.pc = s.pc + 8 ∧ t.err = s.err ∧ t.errcode = s.errcode ∧
        t.errpc = s.errpc ∧ t.errcmd = s.errcmd

/-! ### The tweak register -/

/-- 41_tweak.md R160, R153: TWSTART with a legal type gives TYPE, FIRST = 1 and nothing else in the tweak;
every other register stays, FILL among them (R160; that R160 is followed there and not 43_ubi.md R216 is the model's choice,
log 16). -/
def Obligations.TwstartStartsTheBlockType : Prop :=
  ∀ (a : BitVec 8) (s : State), s.phase ≠ .uninit → a.toNat ∈ [0, 4, 8, 12, 16, 20, 48, 63] →
    exec (.twstart a) s =
      .next { s with t0 := 0, t1 := BitVec.ofNat 64 (a.toNat * 2 ^ 56 + 2 ^ 62), pc := s.pc + 8 }

/-- 41_tweak.md R161: TWFLAG writes exactly the selected flag: 0 FIRST (62), 1 FINAL (63), 2 BITPAD (55). -/
def Obligations.TwflagWritesOneFlag : Prop :=
  ∀ (a : BitVec 8) (imm : BitVec 32) (b : Nat) (s : State), s.phase ≠ .uninit → imm.toNat ≤ 1 →
    (a = 0 ∧ b = 62 ∨ a = 1 ∧ b = 63 ∨ a = 2 ∧ b = 55) →
    ∃ t1, exec (.twflag a imm) s = .next { s with t1 := t1, pc := s.pc + 8 } ∧ fieldWritten s.t1 t1 b 1 imm.toNat

/-- 41_tweak.md R162: TWLEVEL writes T1[54:48] and no other bit. -/
def Obligations.TwlevelWritesTheTreeLevel : Prop :=
  ∀ (a : BitVec 8) (s : State), s.phase ≠ .uninit → a.toNat ≤ 63 →
    ∃ t1, exec (.twlevel a) s = .next { s with t1 := t1, pc := s.pc + 8 } ∧ fieldWritten s.t1 t1 48 7 a.toNat

/-- 41_tweak.md R154, through TWADD (R163): POS becomes (POS + n) mod 2^96 and T1[63:32] is unchanged. -/
def Obligations.TwaddAddsModulo96Bits : Prop :=
  ∀ (imm : BitVec 32) (s : State), s.phase ≠ .uninit →
    ∃ t0 t1, exec (.twadd imm) s = .next { s with t0 := t0, t1 := t1, pc := s.pc + 8 } ∧
      t1.toNat % 2 ^ 32 * 2 ^ 64 + t0.toNat
        = (s.t1.toNat % 2 ^ 32 * 2 ^ 64 + s.t0.toNat + imm.toNat) % 2 ^ 96 ∧
      t1.toNat / 2 ^ 32 = s.t1.toNat / 2 ^ 32

/-- 41_tweak.md R164: STTWEAK stores T0 and T1 little-endian in the 16 bytes from ADDR on, and changes nothing else. -/
def Obligations.SttweakStoresTheTweak : Prop :=
  ∀ (addr len : Addr) (s : State), s.phase ≠ .uninit → len.toNat = 16 → addr.toNat + 16 ≤ s.cfg.dmemSize → s.dmem.wf →
    ∃ m, exec (.sttweak addr len) s = .next { s with dmem := m, pc := s.pc + 8 } ∧
      storedAt s.dmem m addr.toNat (bytesOfWords [s.t0, s.t1])

/-! ### The raw cipher -/

/-- 40_threefish.md R118: Threefish reproduces the known answers E-1 to E-6 of 95_test_vectors.md, every word, for each state
size under zero and under counting key, tweak and plaintext. -/
def Obligations.ThreefishGivesTheKnownAnswers : Prop :=
  zeroAnswer 4 = [0x94EEEA8B1F2ADA84, 0xADF103313EAE6670, 0x952419A1F4B16D53, 0xD83F13E63C9F6B11] ∧
  zeroAnswer 8 = [0xBC2560EFC6BBA2B1, 0xE3361F162238EB40, 0xFB8631EE0ABBD175, 0x7B9479D4C5479ED1, 0xCFF0356E58F8C27B,
    0xB1B7B08430F0E7F7, 0xE9A380A56139ABF1, 0xBE7B6D4AA11EB47E] ∧
  zeroAnswer 16 = [0x04B3053D0A3D5CF0, 0x0136E0D1C7DD85F7, 0x067B212F6EA78A5C, 0x0DA9C10B4C54E1C6, 0x0F4EC27394CBACF0,
    0x32437F0568EA4FD5, 0xCFF56D1D7654B49C, 0xA2D5FB14369B2E7B, 0x540306B460472E0B, 0x71C18254BCEA820D,
    0xC36B4068BEAF32C8, 0xFA4329597A360095, 0xC4A36C28434A5B9A, 0xD54331444B1046CF, 0xDF11834830B2A460,
    0x1E39E8DFE1F7EE4F] ∧
  countingAnswer 4 = [0xDF8FEA0EFF91D0E0, 0xD50AD82EE69281C9, 0x76F48D58085D869D, 0xDF975E95B5567065] ∧
  countingAnswer 8 = [0x2C5AD426964304E3, 0x9A2436D6D8CA01B4, 0xDD456DB00E333863, 0x794725970EB9368B,
    0x043546998D0A2A27, 0x25A7C918EA204478, 0x346201A1FEDF11AF, 0x3DAF1C5C3D672789] ∧
  countingAnswer 16 = [0xB0C33CD7DB4D65A6, 0xBC49A85A1077D75D, 0x6855FCAFEA7293E4, 0x1C5385AB1B7754D2,
    0x30E4AAFFE780F794, 0xE1BBEE708CAFD8D5, 0x9CA837B7423B0F76, 0xBD1403670D4963B3, 0x451F2E3CE61EA48A,
    0xB360832F9277D4FB, 0x0AAFC7A65E12D688, 0xC8906E79016D05D7, 0xB316570A15F41333, 0x74E98A2869F5D50E,
    0x57CE6F9247432BCE, 0xDE7CDD77215144DE]

/-- 40_threefish.md R125, R126: TFKEY loads TFK[0..Nw-1] and keeps the rest; TFTWEAK loads TFT; neither changes anything
else. -/
def Obligations.TfkeyAndTftweakLoadTheRawRegisters : Prop :=
  ∀ (addr len : Addr) (s : State), s.phase ≠ .uninit →
    (s.nw ∈ stateSizes → len.toNat = 8 * s.nw.toNat → addr.toNat + 8 * s.nw.toNat ≤ s.cfg.dmemSize →
      ∃ k, exec (.tfkey addr len) s = .next { s with tfk := k, pc := s.pc + 8 } ∧
        firstWordsAre s.tfk k (wordsAtAddr s.dmem addr.toNat s.nw.toNat)) ∧
    (len.toNat = 16 → addr.toNat + 16 ≤ s.cfg.dmemSize →
      exec (.tftweak addr len) s = .next { s with
        tft := #v[wordAtAddr s.dmem addr.toNat, wordAtAddr s.dmem (addr.toNat + 8)], pc := s.pc + 8 })

/-- 40_threefish.md R127: TFENC replaces the Nb bytes at ADDR by their bare ciphertext under TFK and TFT, nothing else. -/
def Obligations.TfencEncryptsTheBlockInPlace : Prop :=
  ∀ (addr : Addr) (s : State), s.phase ≠ .uninit → s.nw ∈ stateSizes →
    addr.toNat + 8 * s.nw.toNat ≤ s.cfg.dmemSize → s.dmem.wf →
    ∃ m, exec (.tfenc addr) s = .next { s with dmem := m, pc := s.pc + 8 } ∧
      storedAt s.dmem m addr.toNat
        (bytesOfWords (threefish s.nw.toNat (s.tfk.toList.take s.nw.toNat) s.tft[0] s.tft[1]
          (wordsAtAddr s.dmem addr.toNat s.nw.toNat))) ∧
      ∀ x, (x < addr.toNat ∨ addr.toNat + 8 * s.nw.toNat ≤ x) → m.read x = s.dmem.read x

/-- 10_state.md R30: no command but CREATE, TFKEY, TFTWEAK and TFENC reads or writes TFK and TFT. -/
def Obligations.UbiCommandsIgnoreTheRawRegisters : Prop :=
  ∀ (i : Instr) (s t : State) (k : Vector Word 16) (w : Vector Word 2), usesRawCipher i = false → exec i s = .next t →
    t.tfk = s.tfk ∧ t.tft = s.tft ∧ exec i { s with tfk := k, tft := w } = .next { t with tfk := k, tft := w }

/-! ### The configuration unit -/

/-- 42_config.md R190, R181, R184: CREATE discards everything and gives STATE = CFGVAL = the plain configuration value, the
default CFGSTR, a Message tweak, an empty buffer and PHASE = ACCUM, from every phase. -/
def Obligations.CreateBuildsAFreshEngine : Prop :=
  ∀ (a : BitVec 8) (imm : BitVec 32) (s : State), a ∈ stateSizes → 1 ≤ imm.toNat → imm.toNat < 2 ^ 31 →
    ∃ v : Vector Word 16,
      exec (.create a imm) s = .next { s with
        nw := a, outbits := imm, chain := v, t0 := 0, t1 := messageT1, ibuf := Vector.replicate 128 0, fill := 0,
        phase := .accum, cfgstr := #v[0x0000000133414853, imm.setWidth 64, 0, 0], cfgval := v,
        tfk := Vector.replicate 16 0, tft := Vector.replicate 2 0, pc := s.pc + 8 } ∧
      v.toList = configValue a.toNat #v[0x0000000133414853, imm.setWidth 64, 0, 0] (List.replicate a.toNat 0)

/-- 42_config.md R191 to R195, R186: each configuration setter writes its one field of CFGSTR and nothing else. -/
def Obligations.ConfigSettersWriteOneFieldOfCfgstr : Prop :=
  ∀ s : State, s.phase ≠ .uninit →
    (∀ addr len : Addr, len.toNat = 4 → addr.toNat + 4 ≤ s.cfg.dmemSize →
      ∃ w, exec (.setschema addr len) s =
          .next { s with cfgstr := #v[w, s.cfgstr[1], s.cfgstr[2], s.cfgstr[3]], pc := s.pc + 8 } ∧
        fieldWritten s.cfgstr[0] w 0 32 ((wordAtAddr s.dmem addr.toNat).toNat % 2 ^ 32)) ∧
    (∀ imm : BitVec 32, imm.toNat ≤ 3 →
      ∃ w, exec (.setver imm) s =
          .next { s with cfgstr := #v[w, s.cfgstr[1], s.cfgstr[2], s.cfgstr[3]], pc := s.pc + 8 } ∧
        fieldWritten s.cfgstr[0] w 32 8 imm.toNat) ∧
    (∀ a : BitVec 8,
      ∃ w, exec (.setleaf a) s =
          .next { s with cfgstr := #v[s.cfgstr[0], s.cfgstr[1], w, s.cfgstr[3]], pc := s.pc + 8 } ∧
        fieldWritten s.cfgstr[2] w 0 8 a.toNat) ∧
    (∀ a : BitVec 8,
      ∃ w, exec (.setfan a) s =
          .next { s with cfgstr := #v[s.cfgstr[0], s.cfgstr[1], w, s.cfgstr[3]], pc := s.pc + 8 } ∧
        fieldWritten s.cfgstr[2] w 8 8 a.toNat) ∧
    (∀ a : BitVec 8, a ≠ 1 →
      ∃ w, exec (.setheight a) s =
          .next { s with cfgstr := #v[s.cfgstr[0], s.cfgstr[1], w, s.cfgstr[3]], pc := s.pc + 8 } ∧
        fieldWritten s.cfgstr[2] w 16 8 a.toNat)

/-- 42_config.md R184, R185, R196: GENCFG writes CFGVAL, keyed with zero or with STATE, and nothing else. -/
def Obligations.GencfgWritesOnlyCfgval : Prop :=
  ∀ s : State, s.phase ≠ .uninit → s.nw ∈ stateSizes → s.cfgstr[2] = 0 →
    (∃ v : Vector Word 16, exec (.gencfg 0) s = .next { s with cfgval := v, pc := s.pc + 8 } ∧
      v.toList = configValue s.nw.toNat s.cfgstr (List.replicate s.nw.toNat 0)) ∧
    (∃ v : Vector Word 16, exec (.gencfg 1) s = .next { s with cfgval := v, pc := s.pc + 8 } ∧
      v.toList = configValue s.nw.toNat s.cfgstr (chainOf s))

/-! ### The UBI engine -/

/-- 43_ubi.md R220, R214: INIT's four modes. Each starts a Message tweak and empties the buffer; mode 0 takes STATE from
CFGVAL, 1 zeroes it, 2 keeps it, 3 derives CFGVAL from it and takes it from there. -/
def Obligations.InitRestartsInFourModes : Prop :=
  ∀ s : State, s.phase ≠ .uninit → s.nw ∈ stateSizes →
    (∃ c, exec (.init 0) s = .next { s with chain := c, t0 := 0, t1 := messageT1, fill := 0, pc := s.pc + 8 } ∧
      firstWordsAre s.chain c (s.cfgval.toList.take s.nw.toNat)) ∧
    (∃ c, exec (.init 1) s = .next { s with chain := c, t0 := 0, t1 := messageT1, fill := 0, pc := s.pc + 8 } ∧
      firstWordsAre s.chain c (List.replicate s.nw.toNat 0)) ∧
    exec (.init 2) s = .next { s with t0 := 0, t1 := messageT1, fill := 0, pc := s.pc + 8 } ∧
    (s.cfgstr[2] = 0 → ∃ c v : Vector Word 16,
      exec (.init 3) s =
        .next { s with chain := c, cfgval := v, t0 := 0, t1 := messageT1, fill := 0, pc := s.pc + 8 } ∧
      v.toList = configValue s.nw.toNat s.cfgstr (chainOf s) ∧ firstWordsAre s.chain c (v.toList.take s.nw.toNat))

/-- 43_ubi.md R221: LDSTATE loads STATE[0..Nw-1] and restarts a Message block; CFGVAL and everything else stay. -/
def Obligations.LdstateLoadsTheChainingState : Prop :=
  ∀ (addr len : Addr) (s : State), s.phase ≠ .uninit → s.nw ∈ stateSizes → len.toNat = 8 * s.nw.toNat →
    addr.toNat + 8 * s.nw.toNat ≤ s.cfg.dmemSize →
    ∃ c, exec (.ldstate addr len) s = .next { s with chain := c, t0 := 0, t1 := messageT1, fill := 0, pc := s.pc + 8 } ∧
      firstWordsAre s.chain c (wordsAtAddr s.dmem addr.toNat s.nw.toNat)

/-- 43_ubi.md R222: STSTATE stores STATE[0..Nw-1] little-endian in the Nb bytes from ADDR on; no register but PC changes. -/
def Obligations.StstateStoresTheChainingState : Prop :=
  ∀ (addr len : Addr) (s : State), s.phase ≠ .uninit → s.nw ∈ stateSizes → len.toNat = 8 * s.nw.toNat →
    addr.toNat + 8 * s.nw.toNat ≤ s.cfg.dmemSize → s.dmem.wf →
    ∃ m, exec (.ststate addr len) s = .next { s with dmem := m, pc := s.pc + 8 } ∧
      storedAt s.dmem m addr.toNat (bytesOfWords (chainOf s)) ∧
      ∀ x, (x < addr.toNat ∨ addr.toNat + 8 * s.nw.toNat ≤ x) → m.read x = s.dmem.read x

/-- 70_reset_and_hazards.md R347, 43_ubi.md R221, R222: a stored chaining value, loaded back in any later state of the same
size whose DMEM still holds it, is the chaining value again. -/
def Obligations.CheckpointRestoresTheChainingValue : Prop :=
  ∀ (addr len : Addr) (s t u : State), s.phase ≠ .uninit → s.nw ∈ stateSizes → len.toNat = 8 * s.nw.toNat →
    addr.toNat + 8 * s.nw.toNat ≤ s.cfg.dmemSize → s.dmem.wf → exec (.ststate addr len) s = .next t →
    u.phase ≠ .uninit → u.nw = s.nw → u.cfg = s.cfg → u.dmem = t.dmem →
    ∃ v, exec (.ldstate addr len) u = .next v ∧ chainOf v = chainOf s

/-- 43_ubi.md R212, R223: bytes that fit in the block are only buffered; a full block stays pending (10_state.md R26). -/
def Obligations.UpdateBuffersWhatFits : Prop :=
  ∀ (addr len : Addr) (s : State), s.phase ≠ .uninit → s.nw ∈ stateSizes →
    s.fill.toNat + len.toNat ≤ 8 * s.nw.toNat → addr.toNat + len.toNat ≤ s.cfg.dmemSize →
    ∃ b : Vector Byte 128,
      exec (.update addr len) s =
        .next { s with ibuf := b, fill := BitVec.ofNat 8 (s.fill.toNat + len.toNat), pc := s.pc + 8 } ∧
      (∀ j, j < len.toNat → b.toList.getD (s.fill.toNat + j) 0 = s.dmem.read (addr.toNat + j)) ∧
      (∀ j, (j < s.fill.toNat ∨ s.fill.toNat + len.toNat ≤ j) → b.toList.getD j 0 = s.ibuf.toList.getD j 0)

/-- 43_ubi.md R210 to R212: a byte that arrives at a full buffer first transforms the pending block, with the counter
advanced by Nb before, clears FIRST after, and becomes byte 0 of the next block. -/
def Obligations.UpdateTransformsAFullBlockLazily : Prop :=
  ∀ (addr : Addr) (s : State), s.phase ≠ .uninit → s.nw ∈ stateSizes → s.fill.toNat = 8 * s.nw.toNat →
    addr.toNat + 1 ≤ s.cfg.dmemSize →
    ∃ (c : Vector Word 16) (t0 t1 t1' : Word),
      exec (.update addr 1) s = .next { s with
        chain := c, t0 := t0, t1 := t1', ibuf := s.ibuf.set 0 (s.dmem.read addr.toNat), fill := 1, pc := s.pc + 8 } ∧
      t1.toNat % 2 ^ 32 * 2 ^ 64 + t0.toNat
        = (s.t1.toNat % 2 ^ 32 * 2 ^ 64 + s.t0.toNat + 8 * s.nw.toNat) % 2 ^ 96 ∧
      t1.toNat / 2 ^ 32 = s.t1.toNat / 2 ^ 32 ∧ fieldWritten t1 t1' 62 1 0 ∧
      firstWordsAre s.chain c
        (ubi s.nw.toNat (chainOf s) t0 t1 (leWords s.nw.toNat s.ibuf.toList))

/-- 43_ubi.md R217: the UPDATEs of any split of a byte string into consecutive pieces, empty ones among them, leave what
the one UPDATE of the whole leaves, but for PC. -/
def Obligations.UpdateOfPiecesIsUpdateOfTheWhole : Prop :=
  ∀ (addr : Addr) (ns : List Nat) (s : State), s.phase ≠ .uninit → s.cfg.Valid → ns.sum < 2 ^ 24 →
    addr.toNat + ns.sum ≤ s.cfg.dmemSize →
    ∃ t u, exec (.update addr (BitVec.ofNat 24 ns.sum)) s = .next t ∧ runAll (updatesFrom addr.toNat ns) s = some u ∧
      { u with pc := t.pc } = t

/-- 43_ubi.md R224: UPDBITS of a whole number of bytes is the UPDATE of those bytes. -/
def Obligations.UpdbitsOfWholeBytesIsUpdate : Prop :=
  ∀ (addr len n : Addr) (s : State), s.phase ≠ .uninit → s.t1.getLsbD 55 = false → len.toNat = 8 * n.toNat →
    addr.toNat + n.toNat ≤ s.cfg.dmemSize →
    ∃ t, exec (.updbits addr len) s = .next t ∧ exec (.update addr n) s = .next t

/-- 43_ubi.md R224, R215: UPDBITS of L bits, L no multiple of 8, is the UPDATE of floor(L/8) + 1 bytes, after which the last
byte appended keeps its top r = L mod 8 bits, has the bit below them set and the rest clear, and BITPAD is set. -/
def Obligations.UpdbitsPadsTheLastByte : Prop :=
  ∀ (addr len n : Addr) (s : State), s.phase = .accum → EngineInv s → s.t1.getLsbD 55 = false → len.toNat % 8 ≠ 0 →
    n.toNat = len.toNat / 8 + 1 → addr.toNat + n.toNat ≤ s.cfg.dmemSize →
    ∃ (u : State) (b : Vector Byte 128) (t1 : Word),
      exec (.update addr n) s = .next u ∧
      exec (.updbits addr len) s = .next { u with ibuf := b, t1 := t1 } ∧
      1 ≤ u.fill.toNat ∧ fieldWritten u.t1 t1 55 1 1 ∧
      (∀ j, j ≠ u.fill.toNat - 1 → b.toList.getD j 0 = u.ibuf.toList.getD j 0) ∧
      (∀ k, k < 8 → (b.toList.getD (u.fill.toNat - 1) 0).getLsbD k =
        if 8 - len.toNat % 8 ≤ k then (u.ibuf.toList.getD (u.fill.toNat - 1) 0).getLsbD k
        else decide (k = 7 - len.toNat % 8))

/-- 43_ubi.md R213, R225: UBIFIN pads the block with zeros, sets FINAL, advances the counter by the bytes buffered and
transforms; FIRST and BITPAD are unchanged and the buffer is empty. -/
def Obligations.UbifinTransformsThePaddedBlock : Prop :=
  ∀ s : State, s.phase ≠ .uninit → s.nw ∈ stateSizes → s.fill.toNat ≤ 8 * s.nw.toNat →
    ∃ (c : Vector Word 16) (t0 t1 : Word) (b : Vector Byte 128),
      exec .ubifin s = .next { s with chain := c, t0 := t0, t1 := t1, ibuf := b, fill := 0, pc := s.pc + 8 } ∧
      (∀ j, b.toList.getD j 0 =
        if s.fill.toNat ≤ j ∧ j < 8 * s.nw.toNat then 0 else s.ibuf.toList.getD j 0) ∧
      t1.toNat % 2 ^ 32 * 2 ^ 64 + t0.toNat
        = (s.t1.toNat % 2 ^ 32 * 2 ^ 64 + s.t0.toNat + s.fill.toNat) % 2 ^ 96 ∧
      (∀ i, 32 ≤ i → t1.getLsbD i = (decide (i = 63) || s.t1.getLsbD i)) ∧
      firstWordsAre s.chain c (ubi s.nw.toNat (chainOf s) t0 t1 (leWords s.nw.toNat b.toList))

/-! ### Output and MAC -/

/-- 44_output.md R250 to R255: DOFINAL stores exactly the ob digest bytes at ADDR, taken from the output blocks under the
chaining value that UBIFIN would leave, and restarts the message from CFGVAL; CFGVAL and the rest stay. -/
def Obligations.DofinalStoresTheDigestAndRestarts : Prop :=
  ∀ (addr : Addr) (s : State), s.phase ≠ .uninit → s.nw ∈ stateSizes → s.dmem.wf →
    addr.toNat + (s.outbits.toNat + 7) / 8 ≤ s.cfg.dmemSize →
    ∃ (u : State) (m : Memory) (c : Vector Word 16),
      exec .ubifin s = .next u ∧
      exec (.dofinal addr) s = .next { s with
        dmem := m, chain := c, t0 := 0, t1 := messageT1, ibuf := u.ibuf, fill := 0, phase := .accum,
        pc := s.pc + 8 } ∧
      firstWordsAre u.chain c (s.cfgval.toList.take s.nw.toNat) ∧
      (∀ k, k < (s.outbits.toNat + 7) / 8 → m.read (addr.toNat + k) =
        (outputBlock s.nw.toNat (chainOf u) (k / (8 * s.nw.toNat))).getD (k % (8 * s.nw.toNat)) 0) ∧
      (∀ x, (x < addr.toNat ∨ addr.toNat + (s.outbits.toNat + 7) / 8 ≤ x) → m.read x = s.dmem.read x)

/-- 95_test_vectors.md E-7 to E-11 and V-OUT-4 (42_config.md R184, R190, 44_output.md R252): from every power-up state with the
reference DMEM_SIZE, whatever its DMEM holds (70_reset_and_hazards.md R340), the initial chaining values that CREATE
derives and the digests of the empty message that DOFINAL stores; the byte after a two-byte digest is what it was. -/
def Obligations.CreateAndDofinalGiveThePublishedValues : Prop :=
  ∀ s : State, PowerUp s → s.cfg = Config.reference →
    (runAll [.create 4 256] s).map (fun t => t.cfgval.toList.take 4) =
      some [0xFC9DA860D048B449, 0x2FCA66479FA7D833, 0xB33BC3896656840F, 0x6A54E920FDE8DA69] ∧
    (runAll [.create 8 512] s).map (fun t => t.cfgval.toList.take 8) =
      some [0x4903ADFF749C51CE, 0x0D95DE399746DF03, 0x8FD1934127C79BCE, 0x9A255629FF352CB1, 0x5DB62599DF6CA7B0,
        0xEABE394CA9D5C3F4, 0x991112C71A75B523, 0xAE18A40B660FCC33] ∧
    (runAll [.create 16 1024] s).map (fun t => t.cfgval.toList) =
      some [0xD593DA0741E72355, 0x15B5E511AC73E00C, 0x5180E5AEBAF2C4F0, 0x03BD41D3FCBCAFAF, 0x1CAEC6FD1983A898,
        0x6E510B8BCDD0589F, 0x77E2BDFDC6394ADA, 0xC11E1DB524DCB0A3, 0xD6D14AF9C6329AB5, 0x6A9B0BFC6EB67E0D,
        0x9243C60DCCFF1332, 0x1A1F1DDE743F02D4, 0x0996753C10ED0BB8, 0x6572DD22F2B4969A, 0x61FD3062D00A579A,
        0x1DE0536E8682E539] ∧
    (runAll [.create 4 256, .dofinal 0x1000] s).map (fun t => t.dmem.readBytes 0x1000 32) =
      some [0xC8, 0x87, 0x70, 0x87, 0xDA, 0x56, 0xE0, 0x72, 0x87, 0x0D, 0xAA, 0x84, 0x3F, 0x17, 0x6E, 0x94, 0x53, 0x11,
        0x59, 0x29, 0x09, 0x4C, 0x3A, 0x40, 0xC4, 0x63, 0xA1, 0x96, 0xC2, 0x9B, 0xF7, 0xBA] ∧
    (runAll [.create 8 512, .dofinal 0x1000] s).map (fun t => t.dmem.readBytes 0x1000 64) =
      some [0xBC, 0x5B, 0x4C, 0x50, 0x92, 0x55, 0x19, 0xC2, 0x90, 0xCC, 0x63, 0x42, 0x77, 0xAE, 0x3D, 0x62, 0x57, 0x21,
        0x23, 0x95, 0xCB, 0xA7, 0x33, 0xBB, 0xAD, 0x37, 0xA4, 0xAF, 0x0F, 0xA0, 0x6A, 0xF4, 0x1F, 0xCA, 0x79, 0x03,
        0xD0, 0x65, 0x64, 0xFE, 0xA7, 0xA2, 0xD3, 0x73, 0x0D, 0xBD, 0xB8, 0x0C, 0x1F, 0x85, 0x56, 0x2D, 0xFC, 0xC0,
        0x70, 0x33, 0x4E, 0xA4, 0xD1, 0xD9, 0xE7, 0x2C, 0xBA, 0x7A] ∧
    (runAll [.create 4 12, .dofinal 0x1000] s).map (fun t => (t.dmem.readBytes 0x1000 2, t.dmem.read 0x1002)) =
      some ([0x3F, 0x32], s.dmem.read 0x1002)

/-- 45_mac.md R270, R271, R273, R274: MACKEY with a key is the UBI call over the key under type Key from the zero state, then
the chained configuration: INIT zeroed; TWSTART key; UPDATE; UBIFIN; INIT chainedcfg; with an empty key it is GENCFG
plain; INIT normal: but for PC in both. -/
def Obligations.MackeyIsTheKeyUbiCallThenChainedConfig : Prop :=
  ∀ (addr len : Addr) (s : State), s.phase ≠ .uninit → s.cfgstr[2] = 0 → addr.toNat + len.toNat ≤ s.cfg.dmemSize →
    ∃ t u, exec (.mackey addr len) s = .next t ∧ t.pc = s.pc + 8 ∧
      runAll (if len = 0 then [.gencfg 0, .init 0]
        else [.init 1, .twstart 0, .update addr len, .ubifin, .init 3]) s = some u ∧ { u with pc := t.pc } = t

/-- 45_mac.md R274: right after CREATE an empty key changes nothing but PC, so the MAC is the plain hash. -/
def Obligations.EmptyMacKeyGivesThePlainHash : Prop :=
  ∀ (a : BitVec 8) (imm : BitVec 32) (addr : Addr) (s t : State), expectedError (.create a imm) s = none →
    addr.toNat ≤ s.cfg.dmemSize → exec (.create a imm) s = .next t →
    exec (.mackey addr 0) t = .next { t with pc := t.pc + 8 }

/-- 45_mac.md R273 ("MACKEY after MACKEY does not chain the keys"): what MACKEY leaves depends on the key bytes, the
configuration string and the state size alone, not on the engine's earlier state nor on the rest of DMEM. -/
def Obligations.MackeyForgetsTheEarlierState : Prop :=
  ∀ (addr len : Addr) (s s' : State), s.phase = .accum → s'.phase = .accum → EngineInv s → EngineInv s' →
    s'.nw = s.nw → s'.cfgstr = s.cfgstr → s.cfgstr[2] = 0 →
    (∀ j, j < len.toNat → s'.dmem.read (addr.toNat + j) = s.dmem.read (addr.toNat + j)) →
    addr.toNat + len.toNat ≤ s.cfg.dmemSize → addr.toNat + len.toNat ≤ s'.cfg.dmemSize →
    ∃ t t', exec (.mackey addr len) s = .next t ∧ exec (.mackey addr len) s' = .next t' ∧
      t'.cfgval = t.cfgval ∧ t'.chain = t.chain ∧ t'.t0 = t.t0 ∧ t'.t1 = t.t1 ∧ t'.fill = t.fill

/-! ### The whole machine -/

/-- 10_state.md R21, R22, R27, R30; 20_memory.md R74; 42_config.md R180, R184; 45_mac.md R272: which commands may write
which state. No command writes the interrupt enables, the parameters or the model's own fields. -/
def Obligations.OnlyTheirCommandsWriteTheRegisters : Prop :=
  ∀ (i : Instr) (s t : State), exec i s = .next t →
    ((∀ a imm, i ≠ .create a imm) → t.nw = s.nw ∧ t.outbits = s.outbits ∧ (s.phase ≠ .finalized → t.phase = s.phase)) ∧
    (mayStore i = false → t.dmem = s.dmem ∧ ∀ x, t.dmem.read x = s.dmem.read x) ∧
    (mayConfigure i = false → t.cfgstr = s.cfgstr) ∧
    (mayDeriveConfig i = false → t.cfgval = s.cfgval) ∧
    (leavesHash i = true → t.chain = s.chain ∧ t.t0 = s.t0 ∧ t.t1 = s.t1 ∧ t.ibuf = s.ibuf ∧ t.fill = s.fill) ∧
    t.ieDone = s.ieDone ∧ t.ieErr = s.ieErr ∧ t.cfg = s.cfg ∧ t.turns = s.turns ∧ t.hostData = s.hostData ∧
    t.freeCtr = s.freeCtr

/-- 10_state.md R25, R39: the bytes of IBUF from FILL on are read by no command: two legal states that differ only there
answer alike, digests in DMEM included, and differ only there again. -/
def Obligations.StaleBufferBytesAreNeverRead : Prop :=
  ∀ (i : Instr) (s s' : State), EngineInv s → EngineInv s' → sameButStaleBytes s s' →
    ∃ t t', exec i s = .next t ∧ exec i s' = .next t' ∧ sameButStaleBytes t t'

/-- 20_memory.md R61, R66: every step keeps DMEM canonical and within its size. -/
def Obligations.StepKeepsDmemLegal : Prop :=
  ∀ s t : State, DmemInv s → step s = .next t → DmemInv t

/-- 10_state.md R31, 60_exceptions.md R300, R313: every step keeps PC and ERRPC aligned, DONE and ERR clear while BUSY = 1 and
never both set, and the error code legal. -/
def Obligations.StepKeepsTheSequencerLegal : Prop :=
  ∀ s t : State, SequencerInv s → step s = .next t → SequencerInv t

/-- 10_state.md R21 to R30, 43_ubi.md R216: every step keeps the engine's registers legal: the state size, FILL ≤ Nb, the
block type, the reserved fields, the zeros beyond the state size, and PHASE never FINALIZED. R216's clause on FILL after a
StartType is not among them (the model's choice, log 16). -/
def Obligations.StepKeepsTheEngineLegal : Prop :=
  ∀ s t : State, EngineInv s → step s = .next t → EngineInv t

/-- 70_reset_and_hazards.md R340: right after reset every register is 0, PHASE is UNINIT and the IRQ line is low; and this
state is a power-up state and legal. -/
def Obligations.ResetStateIsIdleAndLegal : Prop :=
  LegalState State.reset ∧ PowerUp State.reset ∧ State.reset.irq = false ∧
  (∀ s : State, s = State.reset → s.nw = 0 ∧ s.outbits = 0 ∧ s.t0 = 0 ∧ s.t1 = 0 ∧ s.fill = 0 ∧ s.phase = .uninit ∧
    s.pc = 0 ∧ s.ieDone = false ∧ s.ieErr = false ∧ s.busy = false ∧ s.done = false ∧ s.err = false ∧
    s.errcode = 0 ∧ s.errpc = 0 ∧ s.errcmd = 0 ∧
    s.chain = Vector.replicate 16 0 ∧ s.ibuf = Vector.replicate 128 0 ∧ s.cfgstr = Vector.replicate 4 0 ∧
    s.cfgval = Vector.replicate 16 0 ∧ s.tfk = Vector.replicate 16 0 ∧ s.tft = Vector.replicate 2 0)

/-- 70_reset_and_hazards.md R340: from a power-up with any DMEM content and any host, every state reached is legal. -/
def Obligations.EveryReachableStateIsLegal : Prop :=
  ∀ s : State, Reachable s → LegalState s

/-! ### The host port -/

/-- 46_sequencer.md R293, 10_state.md R32: a CTRL write without SRST writes the enables; with GO it starts a run at PC as it
stands, clearing DONE, ERR and ERRCODE, unless BUSY = 1, when GO is ignored. Nothing else changes. -/
def Obligations.GoStartsARunOnlyWhenIdle : Prop :=
  ∀ (s : State) (v : Word) (rest : List Turn), writes s 0 8 v rest → v.getLsbD 3 = false →
    (v.getLsbD 0 = true → s.busy = false → step s = .next { s with
      ieDone := v.getLsbD 1, ieErr := v.getLsbD 2, done := false, err := false, errcode := 0, busy := true,
      turns := rest }) ∧
    (v.getLsbD 0 = false ∨ s.busy = true → step s = .next { s with
      ieDone := v.getLsbD 1, ieErr := v.getLsbD 2, turns := rest })

/-- 70_reset_and_hazards.md R341: writing SRST resets every register at any time, whatever the write's other bits, and
leaves DMEM as it is. -/
def Obligations.SoftResetResetsEveryRegister : Prop :=
  ∀ (s : State) (v : Word) (rest : List Turn), writes s 0 8 v rest → v.getLsbD 3 = true →
    step s = .next { State.reset with
      cfg := s.cfg, dmem := s.dmem, turns := rest, hostData := s.hostData, freeCtr := s.freeCtr }

/-- 10_state.md R33: a STATUS write clears DONE and ERR where it has a 1, ignores every other bit, changes nothing else. -/
def Obligations.StatusWriteOneClears : Prop :=
  ∀ (s : State) (v : Word) (rest : List Turn), writes s 8 8 v rest →
    step s = .next { s with
      done := if v.getLsbD 1 then false else s.done, err := if v.getLsbD 2 then false else s.err, turns := rest }

/-- 10_state.md R31: a PC write while idle stores value[23:3] with three zeros; while BUSY = 1 it is ignored. -/
def Obligations.PcWriteAlignsAndNeedsIdle : Prop :=
  ∀ (s : State) (v : Word) (rest : List Turn), writes s 0x10 8 v rest →
    (s.busy = false →
      step s = .next { s with pc := BitVec.ofNat 24 (v.toNat % 2 ^ 24 / 8 * 8), turns := rest }) ∧
    (s.busy = true → step s = .next { s with turns := rest })

/-- 10_state.md R32, R33: CTRL and STATUS read exactly, busy or idle, bit by bit, and reading them changes nothing. -/
def Obligations.CtrlAndStatusReadExactly : Prop :=
  ∀ (s : State) (rest : List Turn),
    (reads s 0 8 rest → ∃ d : Word, step s = .next { s with hostData := d, turns := rest } ∧
      d.toNat = s.ieDone.toNat * 2 + s.ieErr.toNat * 4) ∧
    (reads s 8 8 rest → ∃ d : Word, step s = .next { s with hostData := d, turns := rest } ∧
      d.toNat = s.busy.toNat + s.done.toNat * 2 + s.err.toNat * 4
        + ((s.done && s.ieDone) || (s.err && s.ieErr)).toNat * 8
        + s.errcode.toNat * 2 ^ 8 + s.nw.toNat * 2 ^ 16
        + (match s.phase with | .uninit => 0 | .accum => 1 | .finalized => 2) * 2 ^ 24)

/-- 10_state.md R36: while idle the host reads each register at its CSR offset; every other offset,
those of TFK and TFT among them, reads 0. -/
def Obligations.IdleCsrReadsFollowTheMap : Prop :=
  ∀ (s : State) (rest : List Turn) (off : BitVec 25) (d : Word), s.busy = false → reads s off 8 rest →
    (off.toNat = 0x010 ∧ d.toNat = s.pc.toNat ∨
     off.toNat = 0x018 ∧ d.toNat = s.errpc.toNat ∨
     off.toNat = 0x020 ∧ d = s.errcmd ∨
     off.toNat = 0x028 ∧ d.toNat = s.outbits.toNat ∨
     off.toNat = 0x030 ∧ d.toNat = s.fill.toNat ∨
     off.toNat = 0x038 ∧ d.toNat = s.cfg.dmemSize % 2 ^ 64 ∨
     off.toNat = 0x040 ∧ d = s.t0 ∨
     off.toNat = 0x048 ∧ d = s.t1 ∨
     (∃ i, i < 16 ∧ off.toNat = 0x080 + 8 * i ∧ d = s.chain.toList.getD i 0) ∨
     (∃ i, i < 4 ∧ off.toNat = 0x100 + 8 * i ∧ d = s.cfgstr.toList.getD i 0) ∨
     (∃ i, i < 16 ∧ off.toNat = 0x180 + 8 * i ∧ d = s.cfgval.toList.getD i 0) ∨
     (∃ i, i < 16 ∧ off.toNat = 0x200 + 8 * i ∧
       d = (leWords 16 s.ibuf.toList).getD i 0) ∨
     off.toNat % 8 = 0 ∧ d = 0 ∧ (0x050 ≤ off.toNat ∧ off.toNat < 0x080 ∨ 0x120 ≤ off.toNat ∧ off.toNat < 0x180 ∨
       0x280 ≤ off.toNat ∧ off.toNat < 0x1000)) →
    step s = .next { s with hostData := d, turns := rest }

/-- 20_memory.md R67, R68: while idle the DMEM window reads and writes 1, 2, 4 or 8 aligned bytes little-endian; a write
stores value[8j+7:8j] at each byte and leaves every other byte and every register. -/
def Obligations.IdleDmemWindowIsLittleEndian : Prop :=
  ∀ (s : State) (rest : List Turn) (off : BitVec 25) (a k : Nat) (v : Word), s.busy = false → DmemInv s →
    off.toNat = 2 ^ 24 + a → a < s.cfg.dmemSize → k ∈ [1, 2, 4, 8] → a % k = 0 →
    (reads s off k rest → ∃ d : Word, step s = .next { s with hostData := d, turns := rest } ∧
      d.toNat = ((List.range k).map fun j => (s.dmem.read (a + j)).toNat * 2 ^ (8 * j)).sum) ∧
    (writes s off k v rest → ∃ m, step s = .next { s with dmem := m, turns := rest } ∧
      storedAt s.dmem m a ((List.range k).map fun j => BitVec.ofNat 8 (v.toNat / 2 ^ (8 * j))))

/-- 20_memory.md R67, 10_state.md R36: unmapped offsets read 0 while idle and ignore writes; so does every CSR offset but
CTRL, STATUS and PC: the engine registers have no host write path. That unmapped offsets take the widths and
alignments of the window is the model's choice (log 10). -/
def Obligations.OtherOffsetsIgnoreWrites : Prop :=
  ∀ (s : State) (rest : List Turn) (off : BitVec 25) (k : Nat) (v : Word), off.toNat % k = 0 →
    (k ∈ [1, 2, 4, 8] → 0x1000 ≤ off.toNat → (off.toNat < 2 ^ 24 ∨ 2 ^ 24 + s.cfg.dmemSize ≤ off.toNat) →
      (s.busy = false → reads s off k rest → step s = .next { s with hostData := 0, turns := rest }) ∧
      (writes s off k v rest → step s = .next { s with turns := rest })) ∧
    (k = 8 → 0x18 ≤ off.toNat → off.toNat < 0x1000 → writes s off k v rest →
      step s = .next { s with turns := rest })

/-- 20_memory.md R68, 93_implementation_defined.md item 16: in the CSR block and in the DMEM window an access of another width or
misaligned is refused. The model's choice (log 10; R67 gives unmapped offsets a result and no width): so it is at the
unmapped offsets, by the window's widths. -/
def Obligations.OutOfSpecHostAccessIsRefused : Prop :=
  ∀ (s : State) (rest : List Turn) (off : BitVec 25) (k : Nat) (v : Word),
    (off.toNat < 0x1000 → k ≠ 8 ∨ off.toNat % 8 ≠ 0 →
      (reads s off k rest → step s = .refused .hostAccessOutsideSpec) ∧
      (writes s off k v rest → step s = .refused .hostAccessOutsideSpec)) ∧
    (2 ^ 24 ≤ off.toNat → off.toNat < 2 ^ 24 + s.cfg.dmemSize → k ∉ [1, 2, 4, 8] ∨ off.toNat % k ≠ 0 →
      (reads s off k rest → step s = .refused .hostAccessOutsideSpec) ∧
      (writes s off k v rest → step s = .refused .hostAccessOutsideSpec)) ∧
    (0x1000 ≤ off.toNat → off.toNat < 2 ^ 24 ∨ 2 ^ 24 + s.cfg.dmemSize ≤ off.toNat →
      k ∉ [1, 2, 4, 8] ∨ off.toNat % k ≠ 0 →
      (reads s off k rest → step s = .refused .hostAccessOutsideSpec) ∧
      (writes s off k v rest → step s = .refused .hostAccessOutsideSpec))

/-- 20_memory.md R70, 70_reset_and_hazards.md R344: no host read changes anything but what the host port answers (and the
count of free values drawn), busy or idle. -/
def Obligations.HostReadsHaveNoSideEffects : Prop :=
  ∀ (s t : State) (rest : List Turn) (off : BitVec 25) (k : Nat), reads s off k rest → step s = .next t →
    t = { s with turns := rest, hostData := t.hostData, freeCtr := t.freeCtr }

/-- 70_reset_and_hazards.md R344: a DMEM write while BUSY = 1 changes at most the bytes it addresses, whatever it leaves
there; the engine registers and the rest of DMEM are not affected. -/
def Obligations.BusyDmemWriteTouchesOnlyItsBytes : Prop :=
  ∀ (s : State) (rest : List Turn) (off : BitVec 25) (a k : Nat) (v : Word), s.busy = true → DmemInv s →
    off.toNat = 2 ^ 24 + a → a < s.cfg.dmemSize → k ∈ [1, 2, 4, 8] → a % k = 0 → writes s off k v rest →
    ∃ m n, step s = .next { s with dmem := m, turns := rest, freeCtr := n } ∧
      ∀ x, (x < a ∨ a + k ≤ x) → m.read x = s.dmem.read x

/-- 10_state.md R30, R36: no host read reveals TFK or TFT. While BUSY = 0, and for CTRL and STATUS, that is the rules'; for
every other read while BUSY = 1 it is the model's choice (log 5): R344 says only "an unspecified value", and the model's
free value depends on the count `freeCtr` alone. -/
def Obligations.HostReadsNeverRevealTheRawRegisters : Prop :=
  ∀ (s t : State) (rest : List Turn) (off : BitVec 25) (w : Nat) (k : Vector Word 16) (x : Vector Word 2),
    reads s off w rest → step s = .next t →
    ∃ t', step { s with tfk := k, tft := x } = .next t' ∧ t'.hostData = t.hostData

/-- 60_exceptions.md R306: the interrupt line is (DONE and IE_DONE) or (ERR and IE_ERR); it is low during a run, and a run's
end by HALT or by an error raises it exactly with its enable. -/
def Obligations.InterruptFollowsDoneAndErr : Prop :=
  ∀ s : State, SequencerInv s → s.busy = true →
    s.irq = false ∧
    ∀ t, sequencersTurn s → step s = .next t → t.busy = false →
      (t.done = true → t.irq = s.ieDone) ∧ (t.err = true → t.irq = s.ieErr)
end

