-- ==== Sys2Proof/Laws/Bytes.lean ====
section
/-! SUPPORT. Byte order and bit fields: words and bytes convert back and forth (20_memory.md R63), an inserted field reads back and
leaves the other bits, and the fields of an encoded word are what was put there (30_encoding.md R81, R82). -/

namespace Sys2Proof.Machine

@[simp] theorem wordBytes_length (n : Nat) (w : Word) : (wordBytes n w).length = n := by simp [wordBytes]

@[simp] theorem leBytes_length (ws : List Word) : (leBytes ws).length = 8 * ws.length := by
  induction ws with
  | nil => rfl
  | cons w ws ih =>
    show (wordBytes 8 w ++ leBytes ws).length = _
    rw [List.length_append, ih, wordBytes_length, List.length_cons]
    omega

@[simp] theorem leWords_length (n : Nat) (bs : List Byte) : (leWords n bs).length = n := by
  induction n generalizing bs with
  | zero => rfl
  | succ n ih => simp [leWords, ih]

/-- Bit `i` of a little-endian word is bit `i mod 8` of byte `i / 8` (20_memory.md R63). -/
theorem leWord_getLsbD (bs : List Byte) (i : Nat) (h : i < 64) :
    (leWord bs).getLsbD i = (bs.getD (i / 8) 0).getLsbD (i % 8) := by
  induction bs generalizing i with
  | nil => simp [leWord]
  | cons b bs ih =>
    show ((leWord bs <<< 8) ||| b.setWidth 64).getLsbD i = _
    by_cases hi : i < 8
    · simp [hi, h, Nat.div_eq_of_lt hi, Nat.mod_eq_of_lt hi]
    · have h8 : b.getLsbD i = false := BitVec.getLsbD_of_ge b i (by omega)
      have hd : i / 8 = (i - 8) / 8 + 1 := by omega
      have hm : i % 8 = (i - 8) % 8 := by omega
      simp only [BitVec.getLsbD_or, BitVec.getLsbD_shiftLeft, BitVec.getLsbD_setWidth, h8, hi, h, hd, hm,
        List.getD_cons_succ, ← ih (i - 8) (by omega)]
      simp

/-- A little-endian word one byte longer, as a number. -/
theorem leWord_cons_toNat (b : Byte) (bs : List Byte) (h : bs.length ≤ 7)
    (hlt : (leWord bs).toNat < 2 ^ (8 * bs.length)) : (leWord (b :: bs)).toNat = b.toNat + 2 ^ 8 * (leWord bs).toNat := by
  have h56 : (leWord bs).toNat < 2 ^ 56 := lt_of_lt_of_le hlt (Nat.pow_le_pow_right (by omega) (by omega))
  have hb := b.isLt
  show ((leWord bs <<< 8) ||| b.setWidth 64).toNat = _
  rw [BitVec.toNat_or, BitVec.toNat_shiftLeft, BitVec.toNat_setWidth, Nat.shiftLeft_eq, Nat.mod_eq_of_lt (by omega),
    Nat.mod_eq_of_lt (by omega), Nat.mul_comm, Nat.add_comm]
  exact (Nat.two_pow_add_eq_or_of_lt (by omega) _).symm

/-- A little-endian word is the sum of `b[j] * 2^(8j)` (20_memory.md R63). -/
theorem leWord_toNat (bs : List Byte) (h : bs.length ≤ 8) :
    (leWord bs).toNat = ((List.range bs.length).map fun j => (bs.getD j 0).toNat * 2 ^ (8 * j)).sum ∧
      (leWord bs).toNat < 2 ^ (8 * bs.length) := by
  induction bs with
  | nil => simp [leWord]
  | cons b bs ih =>
    simp only [List.length_cons] at h
    obtain ⟨h1, h2⟩ := ih (by omega)
    have e := leWord_cons_toNat b bs (by omega) h2
    have hb := b.isLt
    constructor
    · rw [e, h1, List.length_cons, List.range_succ_eq_map, List.map_cons, List.sum_cons, List.map_map,
        ← List.sum_map_mul_left]
      simp only [List.getD_cons_zero, Nat.mul_zero, Nat.pow_zero, Nat.mul_one, Nat.add_left_cancel_iff]
      congr 1
      refine List.map_congr_left fun j _ => ?_
      simp only [Function.comp, List.getD_cons_succ]
      rw [show 8 * j.succ = 8 * j + 8 by omega, Nat.pow_add]
      ring
    · rw [e, List.length_cons, show 8 * (bs.length + 1) = 8 + 8 * bs.length by omega, Nat.pow_add]
      have : (leWord bs).toNat + 1 ≤ 2 ^ (8 * bs.length) := h2
      nlinarith

/-- Bit `k` of byte `j` of a word is its bit `8j + k` (20_memory.md R63). -/
theorem wordByte_getLsbD (w : Word) (j k : Nat) (h : k < 8) : (wordByte w j).getLsbD k = w.getLsbD (8 * j + k) := by
  simp [wordByte, h]

/-- The bytes of a word make the word again. -/
theorem leWord_wordBytes (w : Word) : leWord (wordBytes 8 w) = w := by
  refine BitVec.eq_of_getLsbD_eq fun i h => ?_
  rw [leWord_getLsbD _ _ h]
  have hj : i / 8 < 8 := by omega
  have : (wordBytes 8 w).getD (i / 8) 0 = wordByte w (i / 8) := by simp [wordBytes, hj]
  rw [this, wordByte_getLsbD _ _ _ (Nat.mod_lt _ (by omega)), Nat.div_add_mod]

/-- Storing words and loading them back gives the words (20_memory.md R63). -/
theorem leWords_leBytes (ws : List Word) : leWords ws.length (leBytes ws) = ws := by
  induction ws with
  | nil => rfl
  | cons w ws ih =>
    show leWord ((wordBytes 8 w ++ leBytes ws).take 8) :: leWords ws.length ((wordBytes 8 w ++ leBytes ws).drop 8) = _
    rw [List.take_left' (wordBytes_length 8 w), List.drop_left' (wordBytes_length 8 w), leWord_wordBytes, ih]

/-- Bit `i` of a word with a field replaced. -/
theorem insertField_getLsbD {n : Nat} (w : Word) (lo : Nat) (v : BitVec n) (i : Nat) (h : i < 64) :
    (insertField w lo v).getLsbD i = if lo ≤ i ∧ i < lo + n then v.getLsbD (i - lo) else w.getLsbD i := by
  simp only [insertField, BitVec.getLsbD_or, BitVec.getLsbD_and, BitVec.getLsbD_not, BitVec.getLsbD_shiftLeft,
    BitVec.getLsbD_setWidth, BitVec.getLsbD_allOnes, h]
  by_cases h1 : i < lo
  · simp [h1, show ¬ lo ≤ i by omega]
  · by_cases h2 : i - lo < n
    · simp [h1, h2, show lo ≤ i ∧ i < lo + n by omega, show i - lo < 64 by omega]
    · have : v.getLsbD (i - lo) = false := BitVec.getLsbD_of_ge _ _ (by omega)
      simp [h1, h2, this, show ¬ (lo ≤ i ∧ i < lo + n) by omega]

/-- The replaced field reads back. -/
theorem extract_insertField {n : Nat} (w : Word) (lo : Nat) (v : BitVec n) (h : lo + n ≤ 64) :
    (insertField w lo v).extractLsb' lo n = v := by
  refine BitVec.eq_of_getLsbD_eq fun i hi => ?_
  rw [BitVec.getLsbD_extractLsb', insertField_getLsbD _ _ _ _ (by omega)]
  simp [hi]

/-- A field that does not meet the replaced one is unchanged. -/
theorem extract_insertField_other {n : Nat} (w : Word) (lo : Nat) (v : BitVec n) (lo' n' : Nat) (h' : lo' + n' ≤ 64)
    (h : lo' + n' ≤ lo ∨ lo + n ≤ lo') : (insertField w lo v).extractLsb' lo' n' = w.extractLsb' lo' n' := by
  refine BitVec.eq_of_getLsbD_eq fun i hi => ?_
  rw [BitVec.getLsbD_extractLsb', BitVec.getLsbD_extractLsb', insertField_getLsbD _ _ _ _ (by omega)]
  rw [if_neg (by omega)]

/-- A joined pair of limbs as a number. -/
theorem append_limbs (x y : BitVec 32) : (x ++ y).toNat = x.toNat * 2 ^ 32 + y.toNat := by
  have h := Nat.shiftLeft_add_eq_or_of_lt y.isLt x.toNat
  rw [BitVec.toNat_append, ← h, Nat.shiftLeft_eq]

/-- A field written at the low end leaves the quotient. -/
theorem insertField_low {n : Nat} (w : Word) (v : BitVec n) (h : n ≤ 64) :
    (insertField w 0 v).toNat % 2 ^ n = v.toNat ∧ (insertField w 0 v).toNat / 2 ^ n = w.toNat / 2 ^ n := by
  constructor
  · have := congrArg BitVec.toNat (extract_insertField w 0 v (by omega))
    simpa using this
  · refine Nat.eq_of_testBit_eq fun i => ?_
    rw [Nat.testBit_div_two_pow, Nat.testBit_div_two_pow, BitVec.testBit_toNat, BitVec.testBit_toNat]
    by_cases hi : n + i < 64
    · rw [Nat.add_comm, insertField_getLsbD _ _ _ _ hi, if_neg (by omega)]
    · rw [BitVec.getLsbD_of_ge _ _ (by omega), BitVec.getLsbD_of_ge _ _ (by omega)]

/-- AddPos(n) adds modulo 2^96 and leaves T1[63:32] (41_tweak.md R154). -/
theorem addPosition_spec (n : Nat) (t0 t1 : Word) :
    (addPosition n t0 t1).2.toNat % 2 ^ 32 * 2 ^ 64 + (addPosition n t0 t1).1.toNat
      = (t1.toNat % 2 ^ 32 * 2 ^ 64 + t0.toNat + n) % 2 ^ 96 ∧
    (addPosition n t0 t1).2.toNat / 2 ^ 32 = t1.toNat / 2 ^ 32 := by
  have h0 := t0.isLt
  unfold addPosition
  simp only [(insertField_low t1 _ (by omega : 32 ≤ 64)).1, (insertField_low t1 _ (by omega : 32 ≤ 64)).2, append_limbs,
    BitVec.toNat_ofNat, BitVec.extractLsb'_toNat, Nat.shiftRight_eq_div_pow, Nat.pow_zero, Nat.div_one, and_true]
  omega

/-- The position counter after AddPos(n) (41_tweak.md R152, R154). -/
theorem State.addPos_position (s : State) (n : Nat) : (s.addPos n).position = (s.position + n) % 2 ^ 96 := by
  have h := (addPosition_spec n s.t0 s.t1).1
  simpa [State.position, State.addPos] using h

end Sys2Proof.Machine

namespace Sys2Proof

/-- The fields of a format I word (30_encoding.md R82). -/
theorem packI_fields (op : Opcode) (a : BitVec 8) (imm : BitVec 32) :
    fieldOp (packI op a imm) = op.code ∧ fieldA (packI op a imm) = a ∧ fieldZ (packI op a imm) = 0 ∧
      fieldImm (packI op a imm) = imm := by
  refine ⟨?_, ?_, ?_, ?_⟩ <;> refine BitVec.eq_of_getLsbD_eq fun i hi => ?_ <;>
    simp only [fieldOp, fieldA, fieldZ, fieldImm, packI, BitVec.getLsbD_extractLsb', BitVec.getLsbD_append] <;>
    grind

/-- The fields of a format C word (30_encoding.md R81). -/
theorem packC_fields (op : Opcode) (addr len : Addr) :
    fieldOp (packC op addr len) = op.code ∧ fieldA (packC op addr len) = 0 ∧ fieldAddr (packC op addr len) = addr ∧
      fieldLen (packC op addr len) = len := by
  refine ⟨?_, ?_, ?_, ?_⟩ <;> refine BitVec.eq_of_getLsbD_eq fun i hi => ?_ <;>
    simp only [fieldOp, fieldA, fieldAddr, fieldLen, packC, BitVec.getLsbD_extractLsb', BitVec.getLsbD_append] <;>
    grind

/-- Every opcode is found by its code (30_encoding.md R83). -/
theorem opcodeOf_code (op : Opcode) : opcodeOf op.code = some op := by cases op <;> decide

/-- A format I word decodes to its command unless a field value is illegal. -/
theorem decode_packI (op : Opcode) (a : BitVec 8) (imm : BitVec 32) (hf : op.format = .i)
    (hi : illegalValue op (packI op a imm) = false) : decode (packI op a imm) = .ok (assemble op (packI op a imm)) := by
  obtain ⟨h1, -, h3, -⟩ := packI_fields op a imm
  simp [decode, h1, opcodeOf_code, reservedFieldSet, hf, h3, hi]

/-- A format C word decodes to its command unless a field value is illegal. -/
theorem decode_packC (op : Opcode) (addr len : Addr) (hf : op.format = .c)
    (hi : illegalValue op (packC op addr len) = false) :
    decode (packC op addr len) = .ok (assemble op (packC op addr len)) := by
  obtain ⟨h1, h2, -, -⟩ := packC_fields op addr len
  simp [decode, h1, opcodeOf_code, reservedFieldSet, hf, h2, hi]

/-- A found opcode has the code looked for. -/
theorem code_of_opcodeOf {b : BitVec 8} {op : Opcode} (h : opcodeOf b = some op) : op.code = b := by
  simpa using List.find?_some h

end Sys2Proof
end

