-- ==== Sys2Proof/Laws/Cipher.lean ====
section
/-! SUPPORT. The lengths of the word lists that the cipher and the register files pass around, and what an overlay leaves. -/

namespace Sys2Proof.Machine

/-- The three block sizes of the cipher (40_threefish.md R110). -/
abbrev BlockWords (nw : Nat) : Prop := nw = 4 ∨ nw = 8 ∨ nw = 16

theorem permutation_length {nw : Nat} (h : BlockWords nw) : (permutation nw).length = nw := by
  rcases h with rfl | rfl | rfl <;> decide

@[simp] theorem subkey_length (nw : Nat) (k t : List Word) (s : Nat) : (subkey nw k t s).length = nw := by
  simp [subkey]

@[simp] theorem xorWords_length (a b : List Word) : (xorWords a b).length = min a.length b.length := by
  simp [xorWords]

@[simp] theorem addWords_length (a b : List Word) : (addWords a b).length = min a.length b.length := by
  simp [addWords]

theorem round_length (nw : Nat) (k t : List Word) (d : Nat) (v : List Word) :
    (round nw k t d v).length = (permutation nw).length := by simp [round, permute]

theorem roundsFrom_length (nw : Nat) (k t : List Word) (n d : Nat) (v : List Word) :
    (roundsFrom nw k t (n + 1) d v).length = (permutation nw).length := by
  induction n generalizing d v with
  | zero => exact round_length nw k t d v
  | succ n ih => exact ih (d + 1) (round nw k t d v)

theorem rounds_pos (nw : Nat) : ∃ n, rounds nw = n + 1 := by
  unfold rounds
  split
  · exact ⟨79, rfl⟩
  · exact ⟨71, rfl⟩

/-- The ciphertext has as many words as the block (40_threefish.md R118). -/
theorem threefish_length {nw : Nat} (h : BlockWords nw) (key : List Word) (t0 t1 : Word) (p : List Word) :
    (threefish nw key t0 t1 p).length = nw := by
  obtain ⟨n, hn⟩ := rounds_pos nw
  unfold threefish
  simp only [addWords_length, subkey_length]
  rw [hn, roundsFrom_length, permutation_length h]
  omega

/-- An overlay as its two parts. -/
theorem overlay_eq {α : Type} (ws vs : List α) : overlay ws vs = ws.take vs.length ++ vs.drop ws.length := by
  induction ws generalizing vs with
  | nil => simp [overlay]
  | cons w ws ih => cases vs with
    | nil => simp [overlay]
    | cons v vs => simp [overlay, ih]

@[simp] theorem putFirst_toList {α : Type} {n : Nat} (ws : List α) (v : Vector α n) :
    (putFirst ws v).toList = overlay ws v.toList := rfl

/-- Entry `i` after `R[0..k-1] <- ws`: the new one below `k`, the old one from there on. -/
theorem putFirst_getD {α : Type} {n : Nat} (ws : List α) (v : Vector α n) (i : Nat) (d : α) (h : i < n) :
    (putFirst ws v).toList.getD i d = if i < ws.length then ws.getD i d else v.toList.getD i d := by
  rw [putFirst_toList, overlay_eq]
  have hv : v.toList.length = n := Vector.length_toList
  by_cases hi : i < ws.length
  · rw [if_pos hi]
    simp [List.getElem?_append, hv, h, hi]
  · rw [if_neg hi]
    have : ¬ i < min n ws.length := by omega
    simp only [List.getD_eq_getElem?_getD, List.getElem?_append, List.length_take, hv, if_neg this,
      List.getElem?_drop]
    congr 2
    omega

/-- Taking the entries just put gives them back. -/
theorem takeFirst_putFirst {α : Type} {n : Nat} (ws : List α) (v : Vector α n) (h : ws.length ≤ n) :
    takeFirst ws.length (putFirst ws v) = ws := by
  have hv : v.toList.length = n := Vector.length_toList
  rw [takeFirst, putFirst_toList, overlay_eq, hv, List.take_of_length_le h]
  exact List.take_left

@[simp] theorem takeFirst_length {α : Type} {n : Nat} (k : Nat) (v : Vector α n) :
    (takeFirst k v).length = min k n := by simp [takeFirst]

end Sys2Proof.Machine
end

