-- ==== Sys2Proof/Laws/State.lean ====
section
/-! SUPPORT. One lemma per field per update of the state: what a named operation leaves in each field. Each is true by
unfolding the operation once, so that no later proof unfolds it again. -/

namespace Sys2Proof.Machine

variable (s : State)


/-! ### memWrite -/

@[simp] theorem State.memWrite_cfg (a : Nat) (bs : List Byte) : (s.memWrite a bs).cfg = s.cfg := rfl
@[simp] theorem State.memWrite_nw (a : Nat) (bs : List Byte) : (s.memWrite a bs).nw = s.nw := rfl
@[simp] theorem State.memWrite_outbits (a : Nat) (bs : List Byte) : (s.memWrite a bs).outbits = s.outbits := rfl
@[simp] theorem State.memWrite_chain (a : Nat) (bs : List Byte) : (s.memWrite a bs).chain = s.chain := rfl
@[simp] theorem State.memWrite_t0 (a : Nat) (bs : List Byte) : (s.memWrite a bs).t0 = s.t0 := rfl
@[simp] theorem State.memWrite_t1 (a : Nat) (bs : List Byte) : (s.memWrite a bs).t1 = s.t1 := rfl
@[simp] theorem State.memWrite_ibuf (a : Nat) (bs : List Byte) : (s.memWrite a bs).ibuf = s.ibuf := rfl
@[simp] theorem State.memWrite_fill (a : Nat) (bs : List Byte) : (s.memWrite a bs).fill = s.fill := rfl
@[simp] theorem State.memWrite_phase (a : Nat) (bs : List Byte) : (s.memWrite a bs).phase = s.phase := rfl
@[simp] theorem State.memWrite_cfgstr (a : Nat) (bs : List Byte) : (s.memWrite a bs).cfgstr = s.cfgstr := rfl
@[simp] theorem State.memWrite_cfgval (a : Nat) (bs : List Byte) : (s.memWrite a bs).cfgval = s.cfgval := rfl
@[simp] theorem State.memWrite_tfk (a : Nat) (bs : List Byte) : (s.memWrite a bs).tfk = s.tfk := rfl
@[simp] theorem State.memWrite_tft (a : Nat) (bs : List Byte) : (s.memWrite a bs).tft = s.tft := rfl
@[simp] theorem State.memWrite_pc (a : Nat) (bs : List Byte) : (s.memWrite a bs).pc = s.pc := rfl
@[simp] theorem State.memWrite_ieDone (a : Nat) (bs : List Byte) : (s.memWrite a bs).ieDone = s.ieDone := rfl
@[simp] theorem State.memWrite_ieErr (a : Nat) (bs : List Byte) : (s.memWrite a bs).ieErr = s.ieErr := rfl
@[simp] theorem State.memWrite_busy (a : Nat) (bs : List Byte) : (s.memWrite a bs).busy = s.busy := rfl
@[simp] theorem State.memWrite_done (a : Nat) (bs : List Byte) : (s.memWrite a bs).done = s.done := rfl
@[simp] theorem State.memWrite_err (a : Nat) (bs : List Byte) : (s.memWrite a bs).err = s.err := rfl
@[simp] theorem State.memWrite_errcode (a : Nat) (bs : List Byte) : (s.memWrite a bs).errcode = s.errcode := rfl
@[simp] theorem State.memWrite_errpc (a : Nat) (bs : List Byte) : (s.memWrite a bs).errpc = s.errpc := rfl
@[simp] theorem State.memWrite_errcmd (a : Nat) (bs : List Byte) : (s.memWrite a bs).errcmd = s.errcmd := rfl
@[simp] theorem State.memWrite_dmem (a : Nat) (bs : List Byte) :
    (s.memWrite a bs).dmem = s.dmem.writeBytes a bs := rfl
@[simp] theorem State.memWrite_turns (a : Nat) (bs : List Byte) : (s.memWrite a bs).turns = s.turns := rfl
@[simp] theorem State.memWrite_hostData (a : Nat) (bs : List Byte) : (s.memWrite a bs).hostData = s.hostData := rfl
@[simp] theorem State.memWrite_freeCtr (a : Nat) (bs : List Byte) : (s.memWrite a bs).freeCtr = s.freeCtr := rfl

/-! ### takeError -/

@[simp] theorem State.takeError_cfg (e : ErrorCode) (w : Word) : (s.takeError e w).cfg = s.cfg := rfl
@[simp] theorem State.takeError_nw (e : ErrorCode) (w : Word) : (s.takeError e w).nw = s.nw := rfl
@[simp] theorem State.takeError_outbits (e : ErrorCode) (w : Word) : (s.takeError e w).outbits = s.outbits := rfl
@[simp] theorem State.takeError_chain (e : ErrorCode) (w : Word) : (s.takeError e w).chain = s.chain := rfl
@[simp] theorem State.takeError_t0 (e : ErrorCode) (w : Word) : (s.takeError e w).t0 = s.t0 := rfl
@[simp] theorem State.takeError_t1 (e : ErrorCode) (w : Word) : (s.takeError e w).t1 = s.t1 := rfl
@[simp] theorem State.takeError_ibuf (e : ErrorCode) (w : Word) : (s.takeError e w).ibuf = s.ibuf := rfl
@[simp] theorem State.takeError_fill (e : ErrorCode) (w : Word) : (s.takeError e w).fill = s.fill := rfl
@[simp] theorem State.takeError_phase (e : ErrorCode) (w : Word) : (s.takeError e w).phase = s.phase := rfl
@[simp] theorem State.takeError_cfgstr (e : ErrorCode) (w : Word) : (s.takeError e w).cfgstr = s.cfgstr := rfl
@[simp] theorem State.takeError_cfgval (e : ErrorCode) (w : Word) : (s.takeError e w).cfgval = s.cfgval := rfl
@[simp] theorem State.takeError_tfk (e : ErrorCode) (w : Word) : (s.takeError e w).tfk = s.tfk := rfl
@[simp] theorem State.takeError_tft (e : ErrorCode) (w : Word) : (s.takeError e w).tft = s.tft := rfl
@[simp] theorem State.takeError_pc (e : ErrorCode) (w : Word) : (s.takeError e w).pc = s.pc := rfl
@[simp] theorem State.takeError_ieDone (e : ErrorCode) (w : Word) : (s.takeError e w).ieDone = s.ieDone := rfl
@[simp] theorem State.takeError_ieErr (e : ErrorCode) (w : Word) : (s.takeError e w).ieErr = s.ieErr := rfl
@[simp] theorem State.takeError_busy (e : ErrorCode) (w : Word) : (s.takeError e w).busy = false := rfl
@[simp] theorem State.takeError_done (e : ErrorCode) (w : Word) : (s.takeError e w).done = s.done := rfl
@[simp] theorem State.takeError_err (e : ErrorCode) (w : Word) : (s.takeError e w).err = true := rfl
@[simp] theorem State.takeError_errcode (e : ErrorCode) (w : Word) : (s.takeError e w).errcode = e.code := rfl
@[simp] theorem State.takeError_errpc (e : ErrorCode) (w : Word) : (s.takeError e w).errpc = s.pc := rfl
@[simp] theorem State.takeError_errcmd (e : ErrorCode) (w : Word) : (s.takeError e w).errcmd = w := rfl
@[simp] theorem State.takeError_dmem (e : ErrorCode) (w : Word) : (s.takeError e w).dmem = s.dmem := rfl
@[simp] theorem State.takeError_turns (e : ErrorCode) (w : Word) : (s.takeError e w).turns = s.turns := rfl
@[simp] theorem State.takeError_hostData (e : ErrorCode) (w : Word) : (s.takeError e w).hostData = s.hostData := rfl
@[simp] theorem State.takeError_freeCtr (e : ErrorCode) (w : Word) : (s.takeError e w).freeCtr = s.freeCtr := rfl

/-! ### startRun -/

@[simp] theorem State.startRun_cfg : (s.startRun).cfg = s.cfg := rfl
@[simp] theorem State.startRun_nw : (s.startRun).nw = s.nw := rfl
@[simp] theorem State.startRun_outbits : (s.startRun).outbits = s.outbits := rfl
@[simp] theorem State.startRun_chain : (s.startRun).chain = s.chain := rfl
@[simp] theorem State.startRun_t0 : (s.startRun).t0 = s.t0 := rfl
@[simp] theorem State.startRun_t1 : (s.startRun).t1 = s.t1 := rfl
@[simp] theorem State.startRun_ibuf : (s.startRun).ibuf = s.ibuf := rfl
@[simp] theorem State.startRun_fill : (s.startRun).fill = s.fill := rfl
@[simp] theorem State.startRun_phase : (s.startRun).phase = s.phase := rfl
@[simp] theorem State.startRun_cfgstr : (s.startRun).cfgstr = s.cfgstr := rfl
@[simp] theorem State.startRun_cfgval : (s.startRun).cfgval = s.cfgval := rfl
@[simp] theorem State.startRun_tfk : (s.startRun).tfk = s.tfk := rfl
@[simp] theorem State.startRun_tft : (s.startRun).tft = s.tft := rfl
@[simp] theorem State.startRun_pc : (s.startRun).pc = s.pc := rfl
@[simp] theorem State.startRun_ieDone : (s.startRun).ieDone = s.ieDone := rfl
@[simp] theorem State.startRun_ieErr : (s.startRun).ieErr = s.ieErr := rfl
@[simp] theorem State.startRun_busy : (s.startRun).busy = true := rfl
@[simp] theorem State.startRun_done : (s.startRun).done = false := rfl
@[simp] theorem State.startRun_err : (s.startRun).err = false := rfl
@[simp] theorem State.startRun_errcode : (s.startRun).errcode = 0 := rfl
@[simp] theorem State.startRun_errpc : (s.startRun).errpc = s.errpc := rfl
@[simp] theorem State.startRun_errcmd : (s.startRun).errcmd = s.errcmd := rfl
@[simp] theorem State.startRun_dmem : (s.startRun).dmem = s.dmem := rfl
@[simp] theorem State.startRun_turns : (s.startRun).turns = s.turns := rfl
@[simp] theorem State.startRun_hostData : (s.startRun).hostData = s.hostData := rfl
@[simp] theorem State.startRun_freeCtr : (s.startRun).freeCtr = s.freeCtr := rfl

/-! ### advancePc -/

@[simp] theorem State.advancePc_cfg : (s.advancePc).cfg = s.cfg := rfl
@[simp] theorem State.advancePc_nw : (s.advancePc).nw = s.nw := rfl
@[simp] theorem State.advancePc_outbits : (s.advancePc).outbits = s.outbits := rfl
@[simp] theorem State.advancePc_chain : (s.advancePc).chain = s.chain := rfl
@[simp] theorem State.advancePc_t0 : (s.advancePc).t0 = s.t0 := rfl
@[simp] theorem State.advancePc_t1 : (s.advancePc).t1 = s.t1 := rfl
@[simp] theorem State.advancePc_ibuf : (s.advancePc).ibuf = s.ibuf := rfl
@[simp] theorem State.advancePc_fill : (s.advancePc).fill = s.fill := rfl
@[simp] theorem State.advancePc_phase : (s.advancePc).phase = s.phase := rfl
@[simp] theorem State.advancePc_cfgstr : (s.advancePc).cfgstr = s.cfgstr := rfl
@[simp] theorem State.advancePc_cfgval : (s.advancePc).cfgval = s.cfgval := rfl
@[simp] theorem State.advancePc_tfk : (s.advancePc).tfk = s.tfk := rfl
@[simp] theorem State.advancePc_tft : (s.advancePc).tft = s.tft := rfl
@[simp] theorem State.advancePc_pc : (s.advancePc).pc = s.pc + 8 := rfl
@[simp] theorem State.advancePc_ieDone : (s.advancePc).ieDone = s.ieDone := rfl
@[simp] theorem State.advancePc_ieErr : (s.advancePc).ieErr = s.ieErr := rfl
@[simp] theorem State.advancePc_busy : (s.advancePc).busy = s.busy := rfl
@[simp] theorem State.advancePc_done : (s.advancePc).done = s.done := rfl
@[simp] theorem State.advancePc_err : (s.advancePc).err = s.err := rfl
@[simp] theorem State.advancePc_errcode : (s.advancePc).errcode = s.errcode := rfl
@[simp] theorem State.advancePc_errpc : (s.advancePc).errpc = s.errpc := rfl
@[simp] theorem State.advancePc_errcmd : (s.advancePc).errcmd = s.errcmd := rfl
@[simp] theorem State.advancePc_dmem : (s.advancePc).dmem = s.dmem := rfl
@[simp] theorem State.advancePc_turns : (s.advancePc).turns = s.turns := rfl
@[simp] theorem State.advancePc_hostData : (s.advancePc).hostData = s.hostData := rfl
@[simp] theorem State.advancePc_freeCtr : (s.advancePc).freeCtr = s.freeCtr := rfl

/-! ### haltRun -/

@[simp] theorem State.haltRun_cfg : (s.haltRun).cfg = s.cfg := rfl
@[simp] theorem State.haltRun_nw : (s.haltRun).nw = s.nw := rfl
@[simp] theorem State.haltRun_outbits : (s.haltRun).outbits = s.outbits := rfl
@[simp] theorem State.haltRun_chain : (s.haltRun).chain = s.chain := rfl
@[simp] theorem State.haltRun_t0 : (s.haltRun).t0 = s.t0 := rfl
@[simp] theorem State.haltRun_t1 : (s.haltRun).t1 = s.t1 := rfl
@[simp] theorem State.haltRun_ibuf : (s.haltRun).ibuf = s.ibuf := rfl
@[simp] theorem State.haltRun_fill : (s.haltRun).fill = s.fill := rfl
@[simp] theorem State.haltRun_phase : (s.haltRun).phase = s.phase := rfl
@[simp] theorem State.haltRun_cfgstr : (s.haltRun).cfgstr = s.cfgstr := rfl
@[simp] theorem State.haltRun_cfgval : (s.haltRun).cfgval = s.cfgval := rfl
@[simp] theorem State.haltRun_tfk : (s.haltRun).tfk = s.tfk := rfl
@[simp] theorem State.haltRun_tft : (s.haltRun).tft = s.tft := rfl
@[simp] theorem State.haltRun_pc : (s.haltRun).pc = s.pc := rfl
@[simp] theorem State.haltRun_ieDone : (s.haltRun).ieDone = s.ieDone := rfl
@[simp] theorem State.haltRun_ieErr : (s.haltRun).ieErr = s.ieErr := rfl
@[simp] theorem State.haltRun_busy : (s.haltRun).busy = false := rfl
@[simp] theorem State.haltRun_done : (s.haltRun).done = true := rfl
@[simp] theorem State.haltRun_err : (s.haltRun).err = s.err := rfl
@[simp] theorem State.haltRun_errcode : (s.haltRun).errcode = s.errcode := rfl
@[simp] theorem State.haltRun_errpc : (s.haltRun).errpc = s.errpc := rfl
@[simp] theorem State.haltRun_errcmd : (s.haltRun).errcmd = s.errcmd := rfl
@[simp] theorem State.haltRun_dmem : (s.haltRun).dmem = s.dmem := rfl
@[simp] theorem State.haltRun_turns : (s.haltRun).turns = s.turns := rfl
@[simp] theorem State.haltRun_hostData : (s.haltRun).hostData = s.hostData := rfl
@[simp] theorem State.haltRun_freeCtr : (s.haltRun).freeCtr = s.freeCtr := rfl

/-! ### resetRegisters -/

@[simp] theorem State.resetRegisters_cfg : (s.resetRegisters).cfg = s.cfg := by cases s; rfl
@[simp] theorem State.resetRegisters_nw : (s.resetRegisters).nw = State.reset.nw := by cases s; rfl
@[simp] theorem State.resetRegisters_outbits : (s.resetRegisters).outbits = State.reset.outbits := by cases s; rfl
@[simp] theorem State.resetRegisters_chain : (s.resetRegisters).chain = State.reset.chain := by cases s; rfl
@[simp] theorem State.resetRegisters_t0 : (s.resetRegisters).t0 = State.reset.t0 := by cases s; rfl
@[simp] theorem State.resetRegisters_t1 : (s.resetRegisters).t1 = State.reset.t1 := by cases s; rfl
@[simp] theorem State.resetRegisters_ibuf : (s.resetRegisters).ibuf = State.reset.ibuf := by cases s; rfl
@[simp] theorem State.resetRegisters_fill : (s.resetRegisters).fill = State.reset.fill := by cases s; rfl
@[simp] theorem State.resetRegisters_phase : (s.resetRegisters).phase = State.reset.phase := by cases s; rfl
@[simp] theorem State.resetRegisters_cfgstr : (s.resetRegisters).cfgstr = State.reset.cfgstr := by cases s; rfl
@[simp] theorem State.resetRegisters_cfgval : (s.resetRegisters).cfgval = State.reset.cfgval := by cases s; rfl
@[simp] theorem State.resetRegisters_tfk : (s.resetRegisters).tfk = State.reset.tfk := by cases s; rfl
@[simp] theorem State.resetRegisters_tft : (s.resetRegisters).tft = State.reset.tft := by cases s; rfl
@[simp] theorem State.resetRegisters_pc : (s.resetRegisters).pc = State.reset.pc := by cases s; rfl
@[simp] theorem State.resetRegisters_ieDone : (s.resetRegisters).ieDone = State.reset.ieDone := by cases s; rfl
@[simp] theorem State.resetRegisters_ieErr : (s.resetRegisters).ieErr = State.reset.ieErr := by cases s; rfl
@[simp] theorem State.resetRegisters_busy : (s.resetRegisters).busy = State.reset.busy := by cases s; rfl
@[simp] theorem State.resetRegisters_done : (s.resetRegisters).done = State.reset.done := by cases s; rfl
@[simp] theorem State.resetRegisters_err : (s.resetRegisters).err = State.reset.err := by cases s; rfl
@[simp] theorem State.resetRegisters_errcode : (s.resetRegisters).errcode = State.reset.errcode := by cases s; rfl
@[simp] theorem State.resetRegisters_errpc : (s.resetRegisters).errpc = State.reset.errpc := by cases s; rfl
@[simp] theorem State.resetRegisters_errcmd : (s.resetRegisters).errcmd = State.reset.errcmd := by cases s; rfl
@[simp] theorem State.resetRegisters_dmem : (s.resetRegisters).dmem = s.dmem := by cases s; rfl
@[simp] theorem State.resetRegisters_turns : (s.resetRegisters).turns = s.turns := by cases s; rfl
@[simp] theorem State.resetRegisters_hostData : (s.resetRegisters).hostData = s.hostData := by cases s; rfl
@[simp] theorem State.resetRegisters_freeCtr : (s.resetRegisters).freeCtr = s.freeCtr := by cases s; rfl

/-! ### setTweakBit -/

@[simp] theorem State.setTweakBit_cfg (b : Nat) (v : Bool) : (s.setTweakBit b v).cfg = s.cfg := by cases s; rfl
@[simp] theorem State.setTweakBit_nw (b : Nat) (v : Bool) : (s.setTweakBit b v).nw = s.nw := by cases s; rfl
@[simp] theorem State.setTweakBit_outbits (b : Nat) (v : Bool) :
    (s.setTweakBit b v).outbits = s.outbits := by cases s; rfl
@[simp] theorem State.setTweakBit_chain (b : Nat) (v : Bool) : (s.setTweakBit b v).chain = s.chain := by cases s; rfl
@[simp] theorem State.setTweakBit_t0 (b : Nat) (v : Bool) : (s.setTweakBit b v).t0 = s.t0 := by cases s; rfl
@[simp] theorem State.setTweakBit_t1 (b : Nat) (v : Bool) :
    (s.setTweakBit b v).t1 = insertField s.t1 b (BitVec.ofBool v) := by cases s; rfl
@[simp] theorem State.setTweakBit_ibuf (b : Nat) (v : Bool) : (s.setTweakBit b v).ibuf = s.ibuf := by cases s; rfl
@[simp] theorem State.setTweakBit_fill (b : Nat) (v : Bool) : (s.setTweakBit b v).fill = s.fill := by cases s; rfl
@[simp] theorem State.setTweakBit_phase (b : Nat) (v : Bool) : (s.setTweakBit b v).phase = s.phase := by cases s; rfl
@[simp] theorem State.setTweakBit_cfgstr (b : Nat) (v : Bool) :
    (s.setTweakBit b v).cfgstr = s.cfgstr := by cases s; rfl
@[simp] theorem State.setTweakBit_cfgval (b : Nat) (v : Bool) :
    (s.setTweakBit b v).cfgval = s.cfgval := by cases s; rfl
@[simp] theorem State.setTweakBit_tfk (b : Nat) (v : Bool) : (s.setTweakBit b v).tfk = s.tfk := by cases s; rfl
@[simp] theorem State.setTweakBit_tft (b : Nat) (v : Bool) : (s.setTweakBit b v).tft = s.tft := by cases s; rfl
@[simp] theorem State.setTweakBit_pc (b : Nat) (v : Bool) : (s.setTweakBit b v).pc = s.pc := by cases s; rfl
@[simp] theorem State.setTweakBit_ieDone (b : Nat) (v : Bool) :
    (s.setTweakBit b v).ieDone = s.ieDone := by cases s; rfl
@[simp] theorem State.setTweakBit_ieErr (b : Nat) (v : Bool) : (s.setTweakBit b v).ieErr = s.ieErr := by cases s; rfl
@[simp] theorem State.setTweakBit_busy (b : Nat) (v : Bool) : (s.setTweakBit b v).busy = s.busy := by cases s; rfl
@[simp] theorem State.setTweakBit_done (b : Nat) (v : Bool) : (s.setTweakBit b v).done = s.done := by cases s; rfl
@[simp] theorem State.setTweakBit_err (b : Nat) (v : Bool) : (s.setTweakBit b v).err = s.err := by cases s; rfl
@[simp] theorem State.setTweakBit_errcode (b : Nat) (v : Bool) :
    (s.setTweakBit b v).errcode = s.errcode := by cases s; rfl
@[simp] theorem State.setTweakBit_errpc (b : Nat) (v : Bool) : (s.setTweakBit b v).errpc = s.errpc := by cases s; rfl
@[simp] theorem State.setTweakBit_errcmd (b : Nat) (v : Bool) :
    (s.setTweakBit b v).errcmd = s.errcmd := by cases s; rfl
@[simp] theorem State.setTweakBit_dmem (b : Nat) (v : Bool) : (s.setTweakBit b v).dmem = s.dmem := by cases s; rfl
@[simp] theorem State.setTweakBit_turns (b : Nat) (v : Bool) : (s.setTweakBit b v).turns = s.turns := by cases s; rfl
@[simp] theorem State.setTweakBit_hostData (b : Nat) (v : Bool) :
    (s.setTweakBit b v).hostData = s.hostData := by cases s; rfl
@[simp] theorem State.setTweakBit_freeCtr (b : Nat) (v : Bool) :
    (s.setTweakBit b v).freeCtr = s.freeCtr := by cases s; rfl

/-! ### setTreeLevel -/

@[simp] theorem State.setTreeLevel_cfg (l : BitVec 7) : (s.setTreeLevel l).cfg = s.cfg := rfl
@[simp] theorem State.setTreeLevel_nw (l : BitVec 7) : (s.setTreeLevel l).nw = s.nw := rfl
@[simp] theorem State.setTreeLevel_outbits (l : BitVec 7) : (s.setTreeLevel l).outbits = s.outbits := rfl
@[simp] theorem State.setTreeLevel_chain (l : BitVec 7) : (s.setTreeLevel l).chain = s.chain := rfl
@[simp] theorem State.setTreeLevel_t0 (l : BitVec 7) : (s.setTreeLevel l).t0 = s.t0 := rfl
@[simp] theorem State.setTreeLevel_t1 (l : BitVec 7) : (s.setTreeLevel l).t1 = insertField s.t1 48 l := rfl
@[simp] theorem State.setTreeLevel_ibuf (l : BitVec 7) : (s.setTreeLevel l).ibuf = s.ibuf := rfl
@[simp] theorem State.setTreeLevel_fill (l : BitVec 7) : (s.setTreeLevel l).fill = s.fill := rfl
@[simp] theorem State.setTreeLevel_phase (l : BitVec 7) : (s.setTreeLevel l).phase = s.phase := rfl
@[simp] theorem State.setTreeLevel_cfgstr (l : BitVec 7) : (s.setTreeLevel l).cfgstr = s.cfgstr := rfl
@[simp] theorem State.setTreeLevel_cfgval (l : BitVec 7) : (s.setTreeLevel l).cfgval = s.cfgval := rfl
@[simp] theorem State.setTreeLevel_tfk (l : BitVec 7) : (s.setTreeLevel l).tfk = s.tfk := rfl
@[simp] theorem State.setTreeLevel_tft (l : BitVec 7) : (s.setTreeLevel l).tft = s.tft := rfl
@[simp] theorem State.setTreeLevel_pc (l : BitVec 7) : (s.setTreeLevel l).pc = s.pc := rfl
@[simp] theorem State.setTreeLevel_ieDone (l : BitVec 7) : (s.setTreeLevel l).ieDone = s.ieDone := rfl
@[simp] theorem State.setTreeLevel_ieErr (l : BitVec 7) : (s.setTreeLevel l).ieErr = s.ieErr := rfl
@[simp] theorem State.setTreeLevel_busy (l : BitVec 7) : (s.setTreeLevel l).busy = s.busy := rfl
@[simp] theorem State.setTreeLevel_done (l : BitVec 7) : (s.setTreeLevel l).done = s.done := rfl
@[simp] theorem State.setTreeLevel_err (l : BitVec 7) : (s.setTreeLevel l).err = s.err := rfl
@[simp] theorem State.setTreeLevel_errcode (l : BitVec 7) : (s.setTreeLevel l).errcode = s.errcode := rfl
@[simp] theorem State.setTreeLevel_errpc (l : BitVec 7) : (s.setTreeLevel l).errpc = s.errpc := rfl
@[simp] theorem State.setTreeLevel_errcmd (l : BitVec 7) : (s.setTreeLevel l).errcmd = s.errcmd := rfl
@[simp] theorem State.setTreeLevel_dmem (l : BitVec 7) : (s.setTreeLevel l).dmem = s.dmem := rfl
@[simp] theorem State.setTreeLevel_turns (l : BitVec 7) : (s.setTreeLevel l).turns = s.turns := rfl
@[simp] theorem State.setTreeLevel_hostData (l : BitVec 7) : (s.setTreeLevel l).hostData = s.hostData := rfl
@[simp] theorem State.setTreeLevel_freeCtr (l : BitVec 7) : (s.setTreeLevel l).freeCtr = s.freeCtr := rfl

/-! ### startType -/

@[simp] theorem State.startType_cfg (t : BitVec 8) : (s.startType t).cfg = s.cfg := by cases s; rfl
@[simp] theorem State.startType_nw (t : BitVec 8) : (s.startType t).nw = s.nw := by cases s; rfl
@[simp] theorem State.startType_outbits (t : BitVec 8) : (s.startType t).outbits = s.outbits := by cases s; rfl
@[simp] theorem State.startType_chain (t : BitVec 8) : (s.startType t).chain = s.chain := by cases s; rfl
@[simp] theorem State.startType_t0 (t : BitVec 8) : (s.startType t).t0 = 0 := by cases s; rfl
@[simp] theorem State.startType_t1 (t : BitVec 8) :
    (s.startType t).t1 = (t.setWidth 64 <<< 56) ||| ((1 : Word) <<< 62) := by cases s; rfl
@[simp] theorem State.startType_ibuf (t : BitVec 8) : (s.startType t).ibuf = s.ibuf := by cases s; rfl
@[simp] theorem State.startType_fill (t : BitVec 8) : (s.startType t).fill = s.fill := by cases s; rfl
@[simp] theorem State.startType_phase (t : BitVec 8) : (s.startType t).phase = s.phase := by cases s; rfl
@[simp] theorem State.startType_cfgstr (t : BitVec 8) : (s.startType t).cfgstr = s.cfgstr := by cases s; rfl
@[simp] theorem State.startType_cfgval (t : BitVec 8) : (s.startType t).cfgval = s.cfgval := by cases s; rfl
@[simp] theorem State.startType_tfk (t : BitVec 8) : (s.startType t).tfk = s.tfk := by cases s; rfl
@[simp] theorem State.startType_tft (t : BitVec 8) : (s.startType t).tft = s.tft := by cases s; rfl
@[simp] theorem State.startType_pc (t : BitVec 8) : (s.startType t).pc = s.pc := by cases s; rfl
@[simp] theorem State.startType_ieDone (t : BitVec 8) : (s.startType t).ieDone = s.ieDone := by cases s; rfl
@[simp] theorem State.startType_ieErr (t : BitVec 8) : (s.startType t).ieErr = s.ieErr := by cases s; rfl
@[simp] theorem State.startType_busy (t : BitVec 8) : (s.startType t).busy = s.busy := by cases s; rfl
@[simp] theorem State.startType_done (t : BitVec 8) : (s.startType t).done = s.done := by cases s; rfl
@[simp] theorem State.startType_err (t : BitVec 8) : (s.startType t).err = s.err := by cases s; rfl
@[simp] theorem State.startType_errcode (t : BitVec 8) : (s.startType t).errcode = s.errcode := by cases s; rfl
@[simp] theorem State.startType_errpc (t : BitVec 8) : (s.startType t).errpc = s.errpc := by cases s; rfl
@[simp] theorem State.startType_errcmd (t : BitVec 8) : (s.startType t).errcmd = s.errcmd := by cases s; rfl
@[simp] theorem State.startType_dmem (t : BitVec 8) : (s.startType t).dmem = s.dmem := by cases s; rfl
@[simp] theorem State.startType_turns (t : BitVec 8) : (s.startType t).turns = s.turns := by cases s; rfl
@[simp] theorem State.startType_hostData (t : BitVec 8) : (s.startType t).hostData = s.hostData := by cases s; rfl
@[simp] theorem State.startType_freeCtr (t : BitVec 8) : (s.startType t).freeCtr = s.freeCtr := by cases s; rfl

/-! ### addPos -/

@[simp] theorem State.addPos_cfg (n : Nat) : (s.addPos n).cfg = s.cfg := by cases s; rfl
@[simp] theorem State.addPos_nw (n : Nat) : (s.addPos n).nw = s.nw := by cases s; rfl
@[simp] theorem State.addPos_outbits (n : Nat) : (s.addPos n).outbits = s.outbits := by cases s; rfl
@[simp] theorem State.addPos_chain (n : Nat) : (s.addPos n).chain = s.chain := by cases s; rfl
@[simp] theorem State.addPos_t0 (n : Nat) : (s.addPos n).t0 = (addPosition n s.t0 s.t1).1 := by cases s; rfl
@[simp] theorem State.addPos_t1 (n : Nat) : (s.addPos n).t1 = (addPosition n s.t0 s.t1).2 := by cases s; rfl
@[simp] theorem State.addPos_ibuf (n : Nat) : (s.addPos n).ibuf = s.ibuf := by cases s; rfl
@[simp] theorem State.addPos_fill (n : Nat) : (s.addPos n).fill = s.fill := by cases s; rfl
@[simp] theorem State.addPos_phase (n : Nat) : (s.addPos n).phase = s.phase := by cases s; rfl
@[simp] theorem State.addPos_cfgstr (n : Nat) : (s.addPos n).cfgstr = s.cfgstr := by cases s; rfl
@[simp] theorem State.addPos_cfgval (n : Nat) : (s.addPos n).cfgval = s.cfgval := by cases s; rfl
@[simp] theorem State.addPos_tfk (n : Nat) : (s.addPos n).tfk = s.tfk := by cases s; rfl
@[simp] theorem State.addPos_tft (n : Nat) : (s.addPos n).tft = s.tft := by cases s; rfl
@[simp] theorem State.addPos_pc (n : Nat) : (s.addPos n).pc = s.pc := by cases s; rfl
@[simp] theorem State.addPos_ieDone (n : Nat) : (s.addPos n).ieDone = s.ieDone := by cases s; rfl
@[simp] theorem State.addPos_ieErr (n : Nat) : (s.addPos n).ieErr = s.ieErr := by cases s; rfl
@[simp] theorem State.addPos_busy (n : Nat) : (s.addPos n).busy = s.busy := by cases s; rfl
@[simp] theorem State.addPos_done (n : Nat) : (s.addPos n).done = s.done := by cases s; rfl
@[simp] theorem State.addPos_err (n : Nat) : (s.addPos n).err = s.err := by cases s; rfl
@[simp] theorem State.addPos_errcode (n : Nat) : (s.addPos n).errcode = s.errcode := by cases s; rfl
@[simp] theorem State.addPos_errpc (n : Nat) : (s.addPos n).errpc = s.errpc := by cases s; rfl
@[simp] theorem State.addPos_errcmd (n : Nat) : (s.addPos n).errcmd = s.errcmd := by cases s; rfl
@[simp] theorem State.addPos_dmem (n : Nat) : (s.addPos n).dmem = s.dmem := by cases s; rfl
@[simp] theorem State.addPos_turns (n : Nat) : (s.addPos n).turns = s.turns := by cases s; rfl
@[simp] theorem State.addPos_hostData (n : Nat) : (s.addPos n).hostData = s.hostData := by cases s; rfl
@[simp] theorem State.addPos_freeCtr (n : Nat) : (s.addPos n).freeCtr = s.freeCtr := by cases s; rfl

/-! ### processBlock -/

@[simp] theorem State.processBlock_cfg (n : Nat) : (s.processBlock n).cfg = s.cfg := by cases s; rfl
@[simp] theorem State.processBlock_nw (n : Nat) : (s.processBlock n).nw = s.nw := by cases s; rfl
@[simp] theorem State.processBlock_outbits (n : Nat) : (s.processBlock n).outbits = s.outbits := by cases s; rfl
@[simp] theorem State.processBlock_chain (n : Nat) :
    (s.processBlock n).chain = putFirst (xorWords (threefish s.words s.chainWords (addPosition n s.t0 s.t1).1
      (addPosition n s.t0 s.t1).2 s.bufferWords) s.bufferWords) s.chain := by cases s; rfl
@[simp] theorem State.processBlock_t0 (n : Nat) :
    (s.processBlock n).t0 = (addPosition n s.t0 s.t1).1 := by cases s; rfl
@[simp] theorem State.processBlock_t1 (n : Nat) :
    (s.processBlock n).t1 = (addPosition n s.t0 s.t1).2 := by cases s; rfl
@[simp] theorem State.processBlock_ibuf (n : Nat) : (s.processBlock n).ibuf = s.ibuf := by cases s; rfl
@[simp] theorem State.processBlock_fill (n : Nat) : (s.processBlock n).fill = s.fill := by cases s; rfl
@[simp] theorem State.processBlock_phase (n : Nat) : (s.processBlock n).phase = s.phase := by cases s; rfl
@[simp] theorem State.processBlock_cfgstr (n : Nat) : (s.processBlock n).cfgstr = s.cfgstr := by cases s; rfl
@[simp] theorem State.processBlock_cfgval (n : Nat) : (s.processBlock n).cfgval = s.cfgval := by cases s; rfl
@[simp] theorem State.processBlock_tfk (n : Nat) : (s.processBlock n).tfk = s.tfk := by cases s; rfl
@[simp] theorem State.processBlock_tft (n : Nat) : (s.processBlock n).tft = s.tft := by cases s; rfl
@[simp] theorem State.processBlock_pc (n : Nat) : (s.processBlock n).pc = s.pc := by cases s; rfl
@[simp] theorem State.processBlock_ieDone (n : Nat) : (s.processBlock n).ieDone = s.ieDone := by cases s; rfl
@[simp] theorem State.processBlock_ieErr (n : Nat) : (s.processBlock n).ieErr = s.ieErr := by cases s; rfl
@[simp] theorem State.processBlock_busy (n : Nat) : (s.processBlock n).busy = s.busy := by cases s; rfl
@[simp] theorem State.processBlock_done (n : Nat) : (s.processBlock n).done = s.done := by cases s; rfl
@[simp] theorem State.processBlock_err (n : Nat) : (s.processBlock n).err = s.err := by cases s; rfl
@[simp] theorem State.processBlock_errcode (n : Nat) : (s.processBlock n).errcode = s.errcode := by cases s; rfl
@[simp] theorem State.processBlock_errpc (n : Nat) : (s.processBlock n).errpc = s.errpc := by cases s; rfl
@[simp] theorem State.processBlock_errcmd (n : Nat) : (s.processBlock n).errcmd = s.errcmd := by cases s; rfl
@[simp] theorem State.processBlock_dmem (n : Nat) : (s.processBlock n).dmem = s.dmem := by cases s; rfl
@[simp] theorem State.processBlock_turns (n : Nat) : (s.processBlock n).turns = s.turns := by cases s; rfl
@[simp] theorem State.processBlock_hostData (n : Nat) : (s.processBlock n).hostData = s.hostData := by cases s; rfl
@[simp] theorem State.processBlock_freeCtr (n : Nat) : (s.processBlock n).freeCtr = s.freeCtr := by cases s; rfl

/-! ### pushByte -/

@[simp] theorem State.pushByte_cfg (b : Byte) : (s.pushByte b).cfg = s.cfg := by cases s; rfl
@[simp] theorem State.pushByte_nw (b : Byte) : (s.pushByte b).nw = s.nw := by cases s; rfl
@[simp] theorem State.pushByte_outbits (b : Byte) : (s.pushByte b).outbits = s.outbits := by cases s; rfl
@[simp] theorem State.pushByte_chain (b : Byte) : (s.pushByte b).chain = s.chain := by cases s; rfl
@[simp] theorem State.pushByte_t0 (b : Byte) : (s.pushByte b).t0 = s.t0 := by cases s; rfl
@[simp] theorem State.pushByte_t1 (b : Byte) : (s.pushByte b).t1 = s.t1 := by cases s; rfl
@[simp] theorem State.pushByte_ibuf (b : Byte) :
    (s.pushByte b).ibuf = s.ibuf.setIfInBounds s.fill.toNat b := by cases s; rfl
@[simp] theorem State.pushByte_fill (b : Byte) : (s.pushByte b).fill = s.fill + 1 := by cases s; rfl
@[simp] theorem State.pushByte_phase (b : Byte) : (s.pushByte b).phase = s.phase := by cases s; rfl
@[simp] theorem State.pushByte_cfgstr (b : Byte) : (s.pushByte b).cfgstr = s.cfgstr := by cases s; rfl
@[simp] theorem State.pushByte_cfgval (b : Byte) : (s.pushByte b).cfgval = s.cfgval := by cases s; rfl
@[simp] theorem State.pushByte_tfk (b : Byte) : (s.pushByte b).tfk = s.tfk := by cases s; rfl
@[simp] theorem State.pushByte_tft (b : Byte) : (s.pushByte b).tft = s.tft := by cases s; rfl
@[simp] theorem State.pushByte_pc (b : Byte) : (s.pushByte b).pc = s.pc := by cases s; rfl
@[simp] theorem State.pushByte_ieDone (b : Byte) : (s.pushByte b).ieDone = s.ieDone := by cases s; rfl
@[simp] theorem State.pushByte_ieErr (b : Byte) : (s.pushByte b).ieErr = s.ieErr := by cases s; rfl
@[simp] theorem State.pushByte_busy (b : Byte) : (s.pushByte b).busy = s.busy := by cases s; rfl
@[simp] theorem State.pushByte_done (b : Byte) : (s.pushByte b).done = s.done := by cases s; rfl
@[simp] theorem State.pushByte_err (b : Byte) : (s.pushByte b).err = s.err := by cases s; rfl
@[simp] theorem State.pushByte_errcode (b : Byte) : (s.pushByte b).errcode = s.errcode := by cases s; rfl
@[simp] theorem State.pushByte_errpc (b : Byte) : (s.pushByte b).errpc = s.errpc := by cases s; rfl
@[simp] theorem State.pushByte_errcmd (b : Byte) : (s.pushByte b).errcmd = s.errcmd := by cases s; rfl
@[simp] theorem State.pushByte_dmem (b : Byte) : (s.pushByte b).dmem = s.dmem := by cases s; rfl
@[simp] theorem State.pushByte_turns (b : Byte) : (s.pushByte b).turns = s.turns := by cases s; rfl
@[simp] theorem State.pushByte_hostData (b : Byte) : (s.pushByte b).hostData = s.hostData := by cases s; rfl
@[simp] theorem State.pushByte_freeCtr (b : Byte) : (s.pushByte b).freeCtr = s.freeCtr := by cases s; rfl

/-! ### zeroPad -/

@[simp] theorem State.zeroPad_cfg : (s.zeroPad).cfg = s.cfg := by cases s; rfl
@[simp] theorem State.zeroPad_nw : (s.zeroPad).nw = s.nw := by cases s; rfl
@[simp] theorem State.zeroPad_outbits : (s.zeroPad).outbits = s.outbits := by cases s; rfl
@[simp] theorem State.zeroPad_chain : (s.zeroPad).chain = s.chain := by cases s; rfl
@[simp] theorem State.zeroPad_t0 : (s.zeroPad).t0 = s.t0 := by cases s; rfl
@[simp] theorem State.zeroPad_t1 : (s.zeroPad).t1 = s.t1 := by cases s; rfl
@[simp] theorem State.zeroPad_ibuf :
    (s.zeroPad).ibuf = putFirst (s.ibuf.toList.take s.fill.toNat ++ List.replicate (s.blockBytes - s.fill.toNat) 0) s.ibuf := by cases s; rfl
@[simp] theorem State.zeroPad_fill : (s.zeroPad).fill = s.fill := by cases s; rfl
@[simp] theorem State.zeroPad_phase : (s.zeroPad).phase = s.phase := by cases s; rfl
@[simp] theorem State.zeroPad_cfgstr : (s.zeroPad).cfgstr = s.cfgstr := by cases s; rfl
@[simp] theorem State.zeroPad_cfgval : (s.zeroPad).cfgval = s.cfgval := by cases s; rfl
@[simp] theorem State.zeroPad_tfk : (s.zeroPad).tfk = s.tfk := by cases s; rfl
@[simp] theorem State.zeroPad_tft : (s.zeroPad).tft = s.tft := by cases s; rfl
@[simp] theorem State.zeroPad_pc : (s.zeroPad).pc = s.pc := by cases s; rfl
@[simp] theorem State.zeroPad_ieDone : (s.zeroPad).ieDone = s.ieDone := by cases s; rfl
@[simp] theorem State.zeroPad_ieErr : (s.zeroPad).ieErr = s.ieErr := by cases s; rfl
@[simp] theorem State.zeroPad_busy : (s.zeroPad).busy = s.busy := by cases s; rfl
@[simp] theorem State.zeroPad_done : (s.zeroPad).done = s.done := by cases s; rfl
@[simp] theorem State.zeroPad_err : (s.zeroPad).err = s.err := by cases s; rfl
@[simp] theorem State.zeroPad_errcode : (s.zeroPad).errcode = s.errcode := by cases s; rfl
@[simp] theorem State.zeroPad_errpc : (s.zeroPad).errpc = s.errpc := by cases s; rfl
@[simp] theorem State.zeroPad_errcmd : (s.zeroPad).errcmd = s.errcmd := by cases s; rfl
@[simp] theorem State.zeroPad_dmem : (s.zeroPad).dmem = s.dmem := by cases s; rfl
@[simp] theorem State.zeroPad_turns : (s.zeroPad).turns = s.turns := by cases s; rfl
@[simp] theorem State.zeroPad_hostData : (s.zeroPad).hostData = s.hostData := by cases s; rfl
@[simp] theorem State.zeroPad_freeCtr : (s.zeroPad).freeCtr = s.freeCtr := by cases s; rfl

/-! ### padBits -/

@[simp] theorem State.padBits_cfg (r : Nat) : (s.padBits r).cfg = s.cfg := by cases s; rfl
@[simp] theorem State.padBits_nw (r : Nat) : (s.padBits r).nw = s.nw := by cases s; rfl
@[simp] theorem State.padBits_outbits (r : Nat) : (s.padBits r).outbits = s.outbits := by cases s; rfl
@[simp] theorem State.padBits_chain (r : Nat) : (s.padBits r).chain = s.chain := by cases s; rfl
@[simp] theorem State.padBits_t0 (r : Nat) : (s.padBits r).t0 = s.t0 := by cases s; rfl
@[simp] theorem State.padBits_t1 (r : Nat) : (s.padBits r).t1 = s.t1 := by cases s; rfl
@[simp] theorem State.padBits_ibuf (r : Nat) :
    (s.padBits r).ibuf = s.ibuf.setIfInBounds (s.fill.toNat - 1)
      (padByte r (s.ibuf.toList.getD (s.fill.toNat - 1) 0)) := by cases s; rfl
@[simp] theorem State.padBits_fill (r : Nat) : (s.padBits r).fill = s.fill := by cases s; rfl
@[simp] theorem State.padBits_phase (r : Nat) : (s.padBits r).phase = s.phase := by cases s; rfl
@[simp] theorem State.padBits_cfgstr (r : Nat) : (s.padBits r).cfgstr = s.cfgstr := by cases s; rfl
@[simp] theorem State.padBits_cfgval (r : Nat) : (s.padBits r).cfgval = s.cfgval := by cases s; rfl
@[simp] theorem State.padBits_tfk (r : Nat) : (s.padBits r).tfk = s.tfk := by cases s; rfl
@[simp] theorem State.padBits_tft (r : Nat) : (s.padBits r).tft = s.tft := by cases s; rfl
@[simp] theorem State.padBits_pc (r : Nat) : (s.padBits r).pc = s.pc := by cases s; rfl
@[simp] theorem State.padBits_ieDone (r : Nat) : (s.padBits r).ieDone = s.ieDone := by cases s; rfl
@[simp] theorem State.padBits_ieErr (r : Nat) : (s.padBits r).ieErr = s.ieErr := by cases s; rfl
@[simp] theorem State.padBits_busy (r : Nat) : (s.padBits r).busy = s.busy := by cases s; rfl
@[simp] theorem State.padBits_done (r : Nat) : (s.padBits r).done = s.done := by cases s; rfl
@[simp] theorem State.padBits_err (r : Nat) : (s.padBits r).err = s.err := by cases s; rfl
@[simp] theorem State.padBits_errcode (r : Nat) : (s.padBits r).errcode = s.errcode := by cases s; rfl
@[simp] theorem State.padBits_errpc (r : Nat) : (s.padBits r).errpc = s.errpc := by cases s; rfl
@[simp] theorem State.padBits_errcmd (r : Nat) : (s.padBits r).errcmd = s.errcmd := by cases s; rfl
@[simp] theorem State.padBits_dmem (r : Nat) : (s.padBits r).dmem = s.dmem := by cases s; rfl
@[simp] theorem State.padBits_turns (r : Nat) : (s.padBits r).turns = s.turns := by cases s; rfl
@[simp] theorem State.padBits_hostData (r : Nat) : (s.padBits r).hostData = s.hostData := by cases s; rfl
@[simp] theorem State.padBits_freeCtr (r : Nat) : (s.padBits r).freeCtr = s.freeCtr := by cases s; rfl

/-! ### finish -/

@[simp] theorem State.finish_cfg : (s.finish).cfg = s.cfg := by cases s; rfl
@[simp] theorem State.finish_nw : (s.finish).nw = s.nw := by cases s; rfl
@[simp] theorem State.finish_outbits : (s.finish).outbits = s.outbits := by cases s; rfl
@[simp] theorem State.finish_chain :
    (s.finish).chain = ((s.zeroPad.setTweakBit 63 true).processBlock s.fill.toNat).chain := by cases s; rfl
@[simp] theorem State.finish_t0 :
    (s.finish).t0 = ((s.zeroPad.setTweakBit 63 true).processBlock s.fill.toNat).t0 := by cases s; rfl
@[simp] theorem State.finish_t1 :
    (s.finish).t1 = ((s.zeroPad.setTweakBit 63 true).processBlock s.fill.toNat).t1 := by cases s; rfl
@[simp] theorem State.finish_ibuf : (s.finish).ibuf = s.zeroPad.ibuf := by cases s; rfl
@[simp] theorem State.finish_fill : (s.finish).fill = 0 := by cases s; rfl
@[simp] theorem State.finish_phase : (s.finish).phase = s.phase := by cases s; rfl
@[simp] theorem State.finish_cfgstr : (s.finish).cfgstr = s.cfgstr := by cases s; rfl
@[simp] theorem State.finish_cfgval : (s.finish).cfgval = s.cfgval := by cases s; rfl
@[simp] theorem State.finish_tfk : (s.finish).tfk = s.tfk := by cases s; rfl
@[simp] theorem State.finish_tft : (s.finish).tft = s.tft := by cases s; rfl
@[simp] theorem State.finish_pc : (s.finish).pc = s.pc := by cases s; rfl
@[simp] theorem State.finish_ieDone : (s.finish).ieDone = s.ieDone := by cases s; rfl
@[simp] theorem State.finish_ieErr : (s.finish).ieErr = s.ieErr := by cases s; rfl
@[simp] theorem State.finish_busy : (s.finish).busy = s.busy := by cases s; rfl
@[simp] theorem State.finish_done : (s.finish).done = s.done := by cases s; rfl
@[simp] theorem State.finish_err : (s.finish).err = s.err := by cases s; rfl
@[simp] theorem State.finish_errcode : (s.finish).errcode = s.errcode := by cases s; rfl
@[simp] theorem State.finish_errpc : (s.finish).errpc = s.errpc := by cases s; rfl
@[simp] theorem State.finish_errcmd : (s.finish).errcmd = s.errcmd := by cases s; rfl
@[simp] theorem State.finish_dmem : (s.finish).dmem = s.dmem := by cases s; rfl
@[simp] theorem State.finish_turns : (s.finish).turns = s.turns := by cases s; rfl
@[simp] theorem State.finish_hostData : (s.finish).hostData = s.hostData := by cases s; rfl
@[simp] theorem State.finish_freeCtr : (s.finish).freeCtr = s.freeCtr := by cases s; rfl

/-! ### initNormal -/

@[simp] theorem State.initNormal_cfg : (s.initNormal).cfg = s.cfg := by cases s; rfl
@[simp] theorem State.initNormal_nw : (s.initNormal).nw = s.nw := by cases s; rfl
@[simp] theorem State.initNormal_outbits : (s.initNormal).outbits = s.outbits := by cases s; rfl
@[simp] theorem State.initNormal_chain :
    (s.initNormal).chain = putFirst (takeFirst s.words s.cfgval) s.chain := by cases s; rfl
@[simp] theorem State.initNormal_t0 : (s.initNormal).t0 = 0 := by cases s; rfl
@[simp] theorem State.initNormal_t1 : (s.initNormal).t1 = (s.startType 48).t1 := by cases s; rfl
@[simp] theorem State.initNormal_ibuf : (s.initNormal).ibuf = s.ibuf := by cases s; rfl
@[simp] theorem State.initNormal_fill : (s.initNormal).fill = 0 := by cases s; rfl
@[simp] theorem State.initNormal_phase : (s.initNormal).phase = s.phase := by cases s; rfl
@[simp] theorem State.initNormal_cfgstr : (s.initNormal).cfgstr = s.cfgstr := by cases s; rfl
@[simp] theorem State.initNormal_cfgval : (s.initNormal).cfgval = s.cfgval := by cases s; rfl
@[simp] theorem State.initNormal_tfk : (s.initNormal).tfk = s.tfk := by cases s; rfl
@[simp] theorem State.initNormal_tft : (s.initNormal).tft = s.tft := by cases s; rfl
@[simp] theorem State.initNormal_pc : (s.initNormal).pc = s.pc := by cases s; rfl
@[simp] theorem State.initNormal_ieDone : (s.initNormal).ieDone = s.ieDone := by cases s; rfl
@[simp] theorem State.initNormal_ieErr : (s.initNormal).ieErr = s.ieErr := by cases s; rfl
@[simp] theorem State.initNormal_busy : (s.initNormal).busy = s.busy := by cases s; rfl
@[simp] theorem State.initNormal_done : (s.initNormal).done = s.done := by cases s; rfl
@[simp] theorem State.initNormal_err : (s.initNormal).err = s.err := by cases s; rfl
@[simp] theorem State.initNormal_errcode : (s.initNormal).errcode = s.errcode := by cases s; rfl
@[simp] theorem State.initNormal_errpc : (s.initNormal).errpc = s.errpc := by cases s; rfl
@[simp] theorem State.initNormal_errcmd : (s.initNormal).errcmd = s.errcmd := by cases s; rfl
@[simp] theorem State.initNormal_dmem : (s.initNormal).dmem = s.dmem := by cases s; rfl
@[simp] theorem State.initNormal_turns : (s.initNormal).turns = s.turns := by cases s; rfl
@[simp] theorem State.initNormal_hostData : (s.initNormal).hostData = s.hostData := by cases s; rfl
@[simp] theorem State.initNormal_freeCtr : (s.initNormal).freeCtr = s.freeCtr := by cases s; rfl

/-! ### genConfig -/

@[simp] theorem State.genConfig_cfg (k : List Word) : (s.genConfig k).cfg = s.cfg := by cases s; rfl
@[simp] theorem State.genConfig_nw (k : List Word) : (s.genConfig k).nw = s.nw := by cases s; rfl
@[simp] theorem State.genConfig_outbits (k : List Word) : (s.genConfig k).outbits = s.outbits := by cases s; rfl
@[simp] theorem State.genConfig_chain (k : List Word) : (s.genConfig k).chain = s.chain := by cases s; rfl
@[simp] theorem State.genConfig_t0 (k : List Word) : (s.genConfig k).t0 = s.t0 := by cases s; rfl
@[simp] theorem State.genConfig_t1 (k : List Word) : (s.genConfig k).t1 = s.t1 := by cases s; rfl
@[simp] theorem State.genConfig_ibuf (k : List Word) : (s.genConfig k).ibuf = s.ibuf := by cases s; rfl
@[simp] theorem State.genConfig_fill (k : List Word) : (s.genConfig k).fill = s.fill := by cases s; rfl
@[simp] theorem State.genConfig_phase (k : List Word) : (s.genConfig k).phase = s.phase := by cases s; rfl
@[simp] theorem State.genConfig_cfgstr (k : List Word) : (s.genConfig k).cfgstr = s.cfgstr := by cases s; rfl
@[simp] theorem State.genConfig_cfgval (k : List Word) :
    (s.genConfig k).cfgval = putFirst (xorWords (threefish s.words k 32 0xC400000000000000 s.configBlock) s.configBlock)
      (Vector.replicate 16 0) := by cases s; rfl
@[simp] theorem State.genConfig_tfk (k : List Word) : (s.genConfig k).tfk = s.tfk := by cases s; rfl
@[simp] theorem State.genConfig_tft (k : List Word) : (s.genConfig k).tft = s.tft := by cases s; rfl
@[simp] theorem State.genConfig_pc (k : List Word) : (s.genConfig k).pc = s.pc := by cases s; rfl
@[simp] theorem State.genConfig_ieDone (k : List Word) : (s.genConfig k).ieDone = s.ieDone := by cases s; rfl
@[simp] theorem State.genConfig_ieErr (k : List Word) : (s.genConfig k).ieErr = s.ieErr := by cases s; rfl
@[simp] theorem State.genConfig_busy (k : List Word) : (s.genConfig k).busy = s.busy := by cases s; rfl
@[simp] theorem State.genConfig_done (k : List Word) : (s.genConfig k).done = s.done := by cases s; rfl
@[simp] theorem State.genConfig_err (k : List Word) : (s.genConfig k).err = s.err := by cases s; rfl
@[simp] theorem State.genConfig_errcode (k : List Word) : (s.genConfig k).errcode = s.errcode := by cases s; rfl
@[simp] theorem State.genConfig_errpc (k : List Word) : (s.genConfig k).errpc = s.errpc := by cases s; rfl
@[simp] theorem State.genConfig_errcmd (k : List Word) : (s.genConfig k).errcmd = s.errcmd := by cases s; rfl
@[simp] theorem State.genConfig_dmem (k : List Word) : (s.genConfig k).dmem = s.dmem := by cases s; rfl
@[simp] theorem State.genConfig_turns (k : List Word) : (s.genConfig k).turns = s.turns := by cases s; rfl
@[simp] theorem State.genConfig_hostData (k : List Word) : (s.genConfig k).hostData = s.hostData := by cases s; rfl
@[simp] theorem State.genConfig_freeCtr (k : List Word) : (s.genConfig k).freeCtr = s.freeCtr := by cases s; rfl

/-! ### startKeyHash -/

@[simp] theorem State.startKeyHash_cfg : (s.startKeyHash).cfg = s.cfg := by cases s; rfl
@[simp] theorem State.startKeyHash_nw : (s.startKeyHash).nw = s.nw := by cases s; rfl
@[simp] theorem State.startKeyHash_outbits : (s.startKeyHash).outbits = s.outbits := by cases s; rfl
@[simp] theorem State.startKeyHash_chain : (s.startKeyHash).chain = putFirst s.zeroKey s.chain := by cases s; rfl
@[simp] theorem State.startKeyHash_t0 : (s.startKeyHash).t0 = 0 := by cases s; rfl
@[simp] theorem State.startKeyHash_t1 : (s.startKeyHash).t1 = (s.startType 0).t1 := by cases s; rfl
@[simp] theorem State.startKeyHash_ibuf : (s.startKeyHash).ibuf = s.ibuf := by cases s; rfl
@[simp] theorem State.startKeyHash_fill : (s.startKeyHash).fill = 0 := by cases s; rfl
@[simp] theorem State.startKeyHash_phase : (s.startKeyHash).phase = s.phase := by cases s; rfl
@[simp] theorem State.startKeyHash_cfgstr : (s.startKeyHash).cfgstr = s.cfgstr := by cases s; rfl
@[simp] theorem State.startKeyHash_cfgval : (s.startKeyHash).cfgval = s.cfgval := by cases s; rfl
@[simp] theorem State.startKeyHash_tfk : (s.startKeyHash).tfk = s.tfk := by cases s; rfl
@[simp] theorem State.startKeyHash_tft : (s.startKeyHash).tft = s.tft := by cases s; rfl
@[simp] theorem State.startKeyHash_pc : (s.startKeyHash).pc = s.pc := by cases s; rfl
@[simp] theorem State.startKeyHash_ieDone : (s.startKeyHash).ieDone = s.ieDone := by cases s; rfl
@[simp] theorem State.startKeyHash_ieErr : (s.startKeyHash).ieErr = s.ieErr := by cases s; rfl
@[simp] theorem State.startKeyHash_busy : (s.startKeyHash).busy = s.busy := by cases s; rfl
@[simp] theorem State.startKeyHash_done : (s.startKeyHash).done = s.done := by cases s; rfl
@[simp] theorem State.startKeyHash_err : (s.startKeyHash).err = s.err := by cases s; rfl
@[simp] theorem State.startKeyHash_errcode : (s.startKeyHash).errcode = s.errcode := by cases s; rfl
@[simp] theorem State.startKeyHash_errpc : (s.startKeyHash).errpc = s.errpc := by cases s; rfl
@[simp] theorem State.startKeyHash_errcmd : (s.startKeyHash).errcmd = s.errcmd := by cases s; rfl
@[simp] theorem State.startKeyHash_dmem : (s.startKeyHash).dmem = s.dmem := by cases s; rfl
@[simp] theorem State.startKeyHash_turns : (s.startKeyHash).turns = s.turns := by cases s; rfl
@[simp] theorem State.startKeyHash_hostData : (s.startKeyHash).hostData = s.hostData := by cases s; rfl
@[simp] theorem State.startKeyHash_freeCtr : (s.startKeyHash).freeCtr = s.freeCtr := by cases s; rfl

/-! ### restartWith -/

@[simp] theorem State.restartWith_cfg (ws : List Word) : (s.restartWith ws).cfg = s.cfg := by cases s; rfl
@[simp] theorem State.restartWith_nw (ws : List Word) : (s.restartWith ws).nw = s.nw := by cases s; rfl
@[simp] theorem State.restartWith_outbits (ws : List Word) : (s.restartWith ws).outbits = s.outbits := by cases s; rfl
@[simp] theorem State.restartWith_chain (ws : List Word) :
    (s.restartWith ws).chain = putFirst ws s.chain := by cases s; rfl
@[simp] theorem State.restartWith_t0 (ws : List Word) : (s.restartWith ws).t0 = 0 := by cases s; rfl
@[simp] theorem State.restartWith_t1 (ws : List Word) : (s.restartWith ws).t1 = (s.startType 48).t1 := by cases s; rfl
@[simp] theorem State.restartWith_ibuf (ws : List Word) : (s.restartWith ws).ibuf = s.ibuf := by cases s; rfl
@[simp] theorem State.restartWith_fill (ws : List Word) : (s.restartWith ws).fill = 0 := by cases s; rfl
@[simp] theorem State.restartWith_phase (ws : List Word) : (s.restartWith ws).phase = s.phase := by cases s; rfl
@[simp] theorem State.restartWith_cfgstr (ws : List Word) : (s.restartWith ws).cfgstr = s.cfgstr := by cases s; rfl
@[simp] theorem State.restartWith_cfgval (ws : List Word) : (s.restartWith ws).cfgval = s.cfgval := by cases s; rfl
@[simp] theorem State.restartWith_tfk (ws : List Word) : (s.restartWith ws).tfk = s.tfk := by cases s; rfl
@[simp] theorem State.restartWith_tft (ws : List Word) : (s.restartWith ws).tft = s.tft := by cases s; rfl
@[simp] theorem State.restartWith_pc (ws : List Word) : (s.restartWith ws).pc = s.pc := by cases s; rfl
@[simp] theorem State.restartWith_ieDone (ws : List Word) : (s.restartWith ws).ieDone = s.ieDone := by cases s; rfl
@[simp] theorem State.restartWith_ieErr (ws : List Word) : (s.restartWith ws).ieErr = s.ieErr := by cases s; rfl
@[simp] theorem State.restartWith_busy (ws : List Word) : (s.restartWith ws).busy = s.busy := by cases s; rfl
@[simp] theorem State.restartWith_done (ws : List Word) : (s.restartWith ws).done = s.done := by cases s; rfl
@[simp] theorem State.restartWith_err (ws : List Word) : (s.restartWith ws).err = s.err := by cases s; rfl
@[simp] theorem State.restartWith_errcode (ws : List Word) : (s.restartWith ws).errcode = s.errcode := by cases s; rfl
@[simp] theorem State.restartWith_errpc (ws : List Word) : (s.restartWith ws).errpc = s.errpc := by cases s; rfl
@[simp] theorem State.restartWith_errcmd (ws : List Word) : (s.restartWith ws).errcmd = s.errcmd := by cases s; rfl
@[simp] theorem State.restartWith_dmem (ws : List Word) : (s.restartWith ws).dmem = s.dmem := by cases s; rfl
@[simp] theorem State.restartWith_turns (ws : List Word) : (s.restartWith ws).turns = s.turns := by cases s; rfl
@[simp] theorem State.restartWith_hostData (ws : List Word) :
    (s.restartWith ws).hostData = s.hostData := by cases s; rfl
@[simp] theorem State.restartWith_freeCtr (ws : List Word) : (s.restartWith ws).freeCtr = s.freeCtr := by cases s; rfl

/-! ### setConfigField -/

@[simp] theorem State.setConfigField_cfg {n : Nat} (j : Fin 4) (lo : Nat) (v : BitVec n) :
    (s.setConfigField j lo v).cfg = s.cfg := by cases s; rfl
@[simp] theorem State.setConfigField_nw {n : Nat} (j : Fin 4) (lo : Nat) (v : BitVec n) :
    (s.setConfigField j lo v).nw = s.nw := by cases s; rfl
@[simp] theorem State.setConfigField_outbits {n : Nat} (j : Fin 4) (lo : Nat) (v : BitVec n) :
    (s.setConfigField j lo v).outbits = s.outbits := by cases s; rfl
@[simp] theorem State.setConfigField_chain {n : Nat} (j : Fin 4) (lo : Nat) (v : BitVec n) :
    (s.setConfigField j lo v).chain = s.chain := by cases s; rfl
@[simp] theorem State.setConfigField_t0 {n : Nat} (j : Fin 4) (lo : Nat) (v : BitVec n) :
    (s.setConfigField j lo v).t0 = s.t0 := by cases s; rfl
@[simp] theorem State.setConfigField_t1 {n : Nat} (j : Fin 4) (lo : Nat) (v : BitVec n) :
    (s.setConfigField j lo v).t1 = s.t1 := by cases s; rfl
@[simp] theorem State.setConfigField_ibuf {n : Nat} (j : Fin 4) (lo : Nat) (v : BitVec n) :
    (s.setConfigField j lo v).ibuf = s.ibuf := by cases s; rfl
@[simp] theorem State.setConfigField_fill {n : Nat} (j : Fin 4) (lo : Nat) (v : BitVec n) :
    (s.setConfigField j lo v).fill = s.fill := by cases s; rfl
@[simp] theorem State.setConfigField_phase {n : Nat} (j : Fin 4) (lo : Nat) (v : BitVec n) :
    (s.setConfigField j lo v).phase = s.phase := by cases s; rfl
@[simp] theorem State.setConfigField_cfgstr {n : Nat} (j : Fin 4) (lo : Nat) (v : BitVec n) :
    (s.setConfigField j lo v).cfgstr = s.cfgstr.set j (insertField s.cfgstr[j] lo v) := by cases s; rfl
@[simp] theorem State.setConfigField_cfgval {n : Nat} (j : Fin 4) (lo : Nat) (v : BitVec n) :
    (s.setConfigField j lo v).cfgval = s.cfgval := by cases s; rfl
@[simp] theorem State.setConfigField_tfk {n : Nat} (j : Fin 4) (lo : Nat) (v : BitVec n) :
    (s.setConfigField j lo v).tfk = s.tfk := by cases s; rfl
@[simp] theorem State.setConfigField_tft {n : Nat} (j : Fin 4) (lo : Nat) (v : BitVec n) :
    (s.setConfigField j lo v).tft = s.tft := by cases s; rfl
@[simp] theorem State.setConfigField_pc {n : Nat} (j : Fin 4) (lo : Nat) (v : BitVec n) :
    (s.setConfigField j lo v).pc = s.pc := by cases s; rfl
@[simp] theorem State.setConfigField_ieDone {n : Nat} (j : Fin 4) (lo : Nat) (v : BitVec n) :
    (s.setConfigField j lo v).ieDone = s.ieDone := by cases s; rfl
@[simp] theorem State.setConfigField_ieErr {n : Nat} (j : Fin 4) (lo : Nat) (v : BitVec n) :
    (s.setConfigField j lo v).ieErr = s.ieErr := by cases s; rfl
@[simp] theorem State.setConfigField_busy {n : Nat} (j : Fin 4) (lo : Nat) (v : BitVec n) :
    (s.setConfigField j lo v).busy = s.busy := by cases s; rfl
@[simp] theorem State.setConfigField_done {n : Nat} (j : Fin 4) (lo : Nat) (v : BitVec n) :
    (s.setConfigField j lo v).done = s.done := by cases s; rfl
@[simp] theorem State.setConfigField_err {n : Nat} (j : Fin 4) (lo : Nat) (v : BitVec n) :
    (s.setConfigField j lo v).err = s.err := by cases s; rfl
@[simp] theorem State.setConfigField_errcode {n : Nat} (j : Fin 4) (lo : Nat) (v : BitVec n) :
    (s.setConfigField j lo v).errcode = s.errcode := by cases s; rfl
@[simp] theorem State.setConfigField_errpc {n : Nat} (j : Fin 4) (lo : Nat) (v : BitVec n) :
    (s.setConfigField j lo v).errpc = s.errpc := by cases s; rfl
@[simp] theorem State.setConfigField_errcmd {n : Nat} (j : Fin 4) (lo : Nat) (v : BitVec n) :
    (s.setConfigField j lo v).errcmd = s.errcmd := by cases s; rfl
@[simp] theorem State.setConfigField_dmem {n : Nat} (j : Fin 4) (lo : Nat) (v : BitVec n) :
    (s.setConfigField j lo v).dmem = s.dmem := by cases s; rfl
@[simp] theorem State.setConfigField_turns {n : Nat} (j : Fin 4) (lo : Nat) (v : BitVec n) :
    (s.setConfigField j lo v).turns = s.turns := by cases s; rfl
@[simp] theorem State.setConfigField_hostData {n : Nat} (j : Fin 4) (lo : Nat) (v : BitVec n) :
    (s.setConfigField j lo v).hostData = s.hostData := by cases s; rfl
@[simp] theorem State.setConfigField_freeCtr {n : Nat} (j : Fin 4) (lo : Nat) (v : BitVec n) :
    (s.setConfigField j lo v).freeCtr = s.freeCtr := by cases s; rfl

/-! ### writeStatus -/

@[simp] theorem State.writeStatus_cfg (v : Word) : (s.writeStatus v).cfg = s.cfg := rfl
@[simp] theorem State.writeStatus_nw (v : Word) : (s.writeStatus v).nw = s.nw := rfl
@[simp] theorem State.writeStatus_outbits (v : Word) : (s.writeStatus v).outbits = s.outbits := rfl
@[simp] theorem State.writeStatus_chain (v : Word) : (s.writeStatus v).chain = s.chain := rfl
@[simp] theorem State.writeStatus_t0 (v : Word) : (s.writeStatus v).t0 = s.t0 := rfl
@[simp] theorem State.writeStatus_t1 (v : Word) : (s.writeStatus v).t1 = s.t1 := rfl
@[simp] theorem State.writeStatus_ibuf (v : Word) : (s.writeStatus v).ibuf = s.ibuf := rfl
@[simp] theorem State.writeStatus_fill (v : Word) : (s.writeStatus v).fill = s.fill := rfl
@[simp] theorem State.writeStatus_phase (v : Word) : (s.writeStatus v).phase = s.phase := rfl
@[simp] theorem State.writeStatus_cfgstr (v : Word) : (s.writeStatus v).cfgstr = s.cfgstr := rfl
@[simp] theorem State.writeStatus_cfgval (v : Word) : (s.writeStatus v).cfgval = s.cfgval := rfl
@[simp] theorem State.writeStatus_tfk (v : Word) : (s.writeStatus v).tfk = s.tfk := rfl
@[simp] theorem State.writeStatus_tft (v : Word) : (s.writeStatus v).tft = s.tft := rfl
@[simp] theorem State.writeStatus_pc (v : Word) : (s.writeStatus v).pc = s.pc := rfl
@[simp] theorem State.writeStatus_ieDone (v : Word) : (s.writeStatus v).ieDone = s.ieDone := rfl
@[simp] theorem State.writeStatus_ieErr (v : Word) : (s.writeStatus v).ieErr = s.ieErr := rfl
@[simp] theorem State.writeStatus_busy (v : Word) : (s.writeStatus v).busy = s.busy := rfl
@[simp] theorem State.writeStatus_done (v : Word) : (s.writeStatus v).done = (s.done && !v.getLsbD 1) := rfl
@[simp] theorem State.writeStatus_err (v : Word) : (s.writeStatus v).err = (s.err && !v.getLsbD 2) := rfl
@[simp] theorem State.writeStatus_errcode (v : Word) : (s.writeStatus v).errcode = s.errcode := rfl
@[simp] theorem State.writeStatus_errpc (v : Word) : (s.writeStatus v).errpc = s.errpc := rfl
@[simp] theorem State.writeStatus_errcmd (v : Word) : (s.writeStatus v).errcmd = s.errcmd := rfl
@[simp] theorem State.writeStatus_dmem (v : Word) : (s.writeStatus v).dmem = s.dmem := rfl
@[simp] theorem State.writeStatus_turns (v : Word) : (s.writeStatus v).turns = s.turns := rfl
@[simp] theorem State.writeStatus_hostData (v : Word) : (s.writeStatus v).hostData = s.hostData := rfl
@[simp] theorem State.writeStatus_freeCtr (v : Word) : (s.writeStatus v).freeCtr = s.freeCtr := rfl

end Sys2Proof.Machine
end

