-- ==== Sys2Proof/Laws/Command.lean ====
section
/-! SUPPORT. Everything a command can do: the error entry of its first failing check, or its effect and the PC's advance. -/

namespace Sys2Proof.Machine

@[simp] theorem firstError_nil : firstError [] = none := rfl

@[simp] theorem firstError_cons (b : Bool) (e : ErrorCode) (rest : List Check) :
    firstError ((b, e) :: rest) = if b then some e else firstError rest := rfl

/-- The error of a failing command is that of one of its failing checks. -/
theorem firstError_mem {cs : List Check} {e : ErrorCode} (h : firstError cs = some e) : (true, e) ∈ cs := by
  induction cs with
  | nil => cases h
  | cons c cs ih =>
    obtain ⟨b, d⟩ := c
    cases b with
    | true => simp only [firstError_cons, if_true, Option.some.injEq] at h; simp [h]
    | false => exact List.mem_cons_of_mem _ (ih h)

/-- No check failed exactly when none of them fails. -/
theorem firstError_eq_none {cs : List Check} : firstError cs = none ↔ ∀ c ∈ cs, c.1 = false := by
  induction cs with
  | nil => simp
  | cons c cs ih =>
    obtain ⟨b, d⟩ := c
    cases b <;> simp [ih]

/-- A command whose checks all pass has its effect, and PC advances. -/
theorem runCommand_ok {cs : List Check} (h : firstError cs = none) (i : Instr) (f : State → State) (s : State) :
    runCommand i cs f s = .next (f s).advancePc := by unfold runCommand; rw [h]

/-- A command with a failing check takes the error entry. -/
theorem runCommand_error {cs : List Check} {e : ErrorCode} (h : firstError cs = some e) (i : Instr) (f : State → State)
    (s : State) : runCommand i cs f s = .next (s.takeError e (encode i)) := by unfold runCommand; rw [h]

/-- What a command can do, said once. -/
theorem runCommand_cases {i : Instr} {cs : List Check} {f : State → State} {s t : State}
    (h : runCommand i cs f s = .next t) :
    (∃ e, firstError cs = some e ∧ t = s.takeError e (encode i)) ∨ (firstError cs = none ∧ t = (f s).advancePc) := by
  cases hc : firstError cs with
  | some e =>
    rw [runCommand_error hc] at h
    exact .inl ⟨e, rfl, by cases h; rfl⟩
  | none =>
    rw [runCommand_ok hc] at h
    exact .inr ⟨rfl, by cases h; rfl⟩

/-- A command always answers a next state. -/
theorem runCommand_next (i : Instr) (cs : List Check) (f : State → State) (s : State) :
    ∃ t, runCommand i cs f s = .next t := by
  cases hc : firstError cs with
  | some e => exact ⟨_, runCommand_error hc i f s⟩
  | none => exact ⟨_, runCommand_ok hc i f s⟩

/-! ### Every command at once -/

/-- The checks of a command, in the order of its pseudocode. -/
def checksOf (i : Instr) (s : State) : List Check :=
  match i with
  | .halt | .nop => []
  | .create a imm => [(!stateSizes.contains a, .invalidArgument), (decide (imm.toInt ≤ 0), .invalidArgument)]
  | .setschema addr len => [notCreated s, lengthNot len 4, outOfRange s addr 4]
  | .setver imm => [notCreated s, (decide (3 < imm.toNat), .invalidArgument)]
  | .setleaf _ | .setfan _ => [notCreated s]
  | .setheight a => [notCreated s, (a == 1, .invalidArgument)]
  | .gencfg a => [illegalWhen (decide (1 < a.toNat)), notCreated s, treeConfigured s]
  | .mackey addr len => [notCreated s, treeConfigured s, outOfRange s addr len.toNat]
  | .init a => [illegalWhen (decide (3 < a.toNat)), notCreated s, (a == 3 && (treeConfigured s).1, .unsupported)]
  | .ldstate addr len | .ststate addr len | .tfkey addr len =>
    [notCreated s, lengthNot len s.blockBytes, outOfRange s addr s.blockBytes]
  | .update addr len => [notCreated s, outOfRange s addr len.toNat]
  | .updbits addr len => [notCreated s, (s.bitpad, .invalidState), outOfRange s addr (bytesOfBits len.toNat)]
  | .ubifin => [notCreated s]
  | .dofinal addr => [notCreated s, outOfRange s addr s.digestBytes]
  | .twstart a => [notCreated s, (!blockTypes.contains a, .invalidArgument)]
  | .twflag a imm => [illegalWhen (decide (2 < a.toNat) || decide (1 < imm.toNat)), notCreated s]
  | .twlevel a => [notCreated s, (decide (63 < a.toNat), .invalidArgument)]
  | .twadd _ => [notCreated s]
  | .sttweak addr len | .tftweak addr len => [notCreated s, lengthNot len 16, outOfRange s addr 16]
  | .tfenc addr => [notCreated s, outOfRange s addr s.blockBytes]

/-- The effect of a command whose checks pass, but for PC. -/
def effectOf (i : Instr) (s : State) : State :=
  match i with
  | .halt => s.haltRun
  | .nop => s
  | .create a imm => s.createEngine a imm
  | .setschema addr _ => s.setConfigField 0 0 ((leWord (s.memRead addr.toNat 4)).extractLsb' 0 32)
  | .setver imm => s.setConfigField 0 32 (imm.extractLsb' 0 8)
  | .setleaf a => s.setConfigField 2 0 a
  | .setfan a => s.setConfigField 2 8 a
  | .setheight a => s.setConfigField 2 16 a
  | .gencfg a => if a = 0 then s.genConfig s.zeroKey else s.genConfig s.chainWords
  | .mackey addr len => s.keyMac (s.memRead addr.toNat len.toNat)
  | .init a => s.initMode a
  | .ldstate addr _ => s.restartWith (s.memWords addr.toNat s.words)
  | .ststate addr _ => s.memWrite addr.toNat (leBytes s.chainWords)
  | .update addr len => s.appendBytes (s.memRead addr.toNat len.toNat)
  | .updbits addr len => s.appendBits len.toNat (s.memRead addr.toNat (bytesOfBits len.toNat))
  | .ubifin => s.finish
  | .dofinal addr => s.finalize addr.toNat
  | .twstart a => s.startType a
  | .twflag a imm => s.setTweakBit (flagBit a) (imm.getLsbD 0)
  | .twlevel a => s.setTreeLevel (a.extractLsb' 0 7)
  | .twadd imm => s.addPos imm.toNat
  | .sttweak addr _ => s.memWrite addr.toNat (leBytes [s.t0, s.t1])
  | .tfkey addr _ => { s with tfk := putFirst (s.memWords addr.toNat s.words) s.tfk }
  | .tftweak addr _ => { s with tft := putFirst (s.memWords addr.toNat 2) s.tft }
  | .tfenc addr => s.memWrite addr.toNat (leBytes (s.rawCiphertext addr.toNat))

/-- Every command is its checks and its effect. -/
theorem exec_eq (i : Instr) (s : State) : exec i s = runCommand i (checksOf i s) (effectOf i) s := by
  cases i <;> rfl

/-- What a command can do, said once for all of them: the error entry, or its effect and the PC's advance. -/
theorem exec_cases {i : Instr} {s t : State} (h : exec i s = .next t) :
    (∃ e, firstError (checksOf i s) = some e ∧ t = s.takeError e (encode i)) ∨
      (firstError (checksOf i s) = none ∧ t = (effectOf i s).advancePc) := by
  rw [exec_eq] at h
  exact runCommand_cases h

/-- A command whose checks pass. -/
theorem exec_ok {i : Instr} {s : State} (h : firstError (checksOf i s) = none) :
    exec i s = .next (effectOf i s).advancePc := by rw [exec_eq, runCommand_ok h]

/-- A command with a failing check. -/
theorem exec_error {i : Instr} {s : State} {e : ErrorCode} (h : firstError (checksOf i s) = some e) :
    exec i s = .next (s.takeError e (encode i)) := by rw [exec_eq, runCommand_error h]

/-- Every command answers a next state. -/
theorem exec_next (i : Instr) (s : State) : ∃ t, exec i s = .next t := by
  rw [exec_eq]
  exact runCommand_next _ _ _ _

end Sys2Proof.Machine
end

