-- ==== Sys2Proof/Laws/Engine.lean ====
section
/-! SUPPORT. The frames of the engine operations that are no single record update: the fields they leave, one lemma per field
and operation, so that no later proof walks through a block transform to learn that it writes no other register. -/

namespace Sys2Proof.Machine

theorem State.words_of_nw {s t : State} (h : s.nw = t.nw) : s.words = t.words := by
  unfold State.words; rw [h]


/-! ### The lazy transform leaves -/

@[simp] theorem State.flushFull_cfg (s : State) : (s.flushFull).cfg = s.cfg := by
  cases s; unfold State.flushFull; split <;> rfl
@[simp] theorem State.flushFull_nw (s : State) : (s.flushFull).nw = s.nw := by
  cases s; unfold State.flushFull; split <;> rfl
@[simp] theorem State.flushFull_outbits (s : State) : (s.flushFull).outbits = s.outbits := by
  cases s; unfold State.flushFull; split <;> rfl
@[simp] theorem State.flushFull_ibuf (s : State) : (s.flushFull).ibuf = s.ibuf := by
  cases s; unfold State.flushFull; split <;> rfl
@[simp] theorem State.flushFull_phase (s : State) : (s.flushFull).phase = s.phase := by
  cases s; unfold State.flushFull; split <;> rfl
@[simp] theorem State.flushFull_cfgstr (s : State) : (s.flushFull).cfgstr = s.cfgstr := by
  cases s; unfold State.flushFull; split <;> rfl
@[simp] theorem State.flushFull_cfgval (s : State) : (s.flushFull).cfgval = s.cfgval := by
  cases s; unfold State.flushFull; split <;> rfl
@[simp] theorem State.flushFull_tfk (s : State) : (s.flushFull).tfk = s.tfk := by
  cases s; unfold State.flushFull; split <;> rfl
@[simp] theorem State.flushFull_tft (s : State) : (s.flushFull).tft = s.tft := by
  cases s; unfold State.flushFull; split <;> rfl
@[simp] theorem State.flushFull_pc (s : State) : (s.flushFull).pc = s.pc := by
  cases s; unfold State.flushFull; split <;> rfl
@[simp] theorem State.flushFull_ieDone (s : State) : (s.flushFull).ieDone = s.ieDone := by
  cases s; unfold State.flushFull; split <;> rfl
@[simp] theorem State.flushFull_ieErr (s : State) : (s.flushFull).ieErr = s.ieErr := by
  cases s; unfold State.flushFull; split <;> rfl
@[simp] theorem State.flushFull_busy (s : State) : (s.flushFull).busy = s.busy := by
  cases s; unfold State.flushFull; split <;> rfl
@[simp] theorem State.flushFull_done (s : State) : (s.flushFull).done = s.done := by
  cases s; unfold State.flushFull; split <;> rfl
@[simp] theorem State.flushFull_err (s : State) : (s.flushFull).err = s.err := by
  cases s; unfold State.flushFull; split <;> rfl
@[simp] theorem State.flushFull_errcode (s : State) : (s.flushFull).errcode = s.errcode := by
  cases s; unfold State.flushFull; split <;> rfl
@[simp] theorem State.flushFull_errpc (s : State) : (s.flushFull).errpc = s.errpc := by
  cases s; unfold State.flushFull; split <;> rfl
@[simp] theorem State.flushFull_errcmd (s : State) : (s.flushFull).errcmd = s.errcmd := by
  cases s; unfold State.flushFull; split <;> rfl
@[simp] theorem State.flushFull_dmem (s : State) : (s.flushFull).dmem = s.dmem := by
  cases s; unfold State.flushFull; split <;> rfl
@[simp] theorem State.flushFull_turns (s : State) : (s.flushFull).turns = s.turns := by
  cases s; unfold State.flushFull; split <;> rfl
@[simp] theorem State.flushFull_hostData (s : State) : (s.flushFull).hostData = s.hostData := by
  cases s; unfold State.flushFull; split <;> rfl
@[simp] theorem State.flushFull_freeCtr (s : State) : (s.flushFull).freeCtr = s.freeCtr := by
  cases s; unfold State.flushFull; split <;> rfl

/-! ### Appending a byte leaves -/

@[simp] theorem State.appendByte_cfg (s : State) (b : Byte) : (s.appendByte b).cfg = s.cfg := by
  simp [State.appendByte]
@[simp] theorem State.appendByte_nw (s : State) (b : Byte) : (s.appendByte b).nw = s.nw := by
  simp [State.appendByte]
@[simp] theorem State.appendByte_outbits (s : State) (b : Byte) : (s.appendByte b).outbits = s.outbits := by
  simp [State.appendByte]
@[simp] theorem State.appendByte_phase (s : State) (b : Byte) : (s.appendByte b).phase = s.phase := by
  simp [State.appendByte]
@[simp] theorem State.appendByte_cfgstr (s : State) (b : Byte) : (s.appendByte b).cfgstr = s.cfgstr := by
  simp [State.appendByte]
@[simp] theorem State.appendByte_cfgval (s : State) (b : Byte) : (s.appendByte b).cfgval = s.cfgval := by
  simp [State.appendByte]
@[simp] theorem State.appendByte_tfk (s : State) (b : Byte) : (s.appendByte b).tfk = s.tfk := by
  simp [State.appendByte]
@[simp] theorem State.appendByte_tft (s : State) (b : Byte) : (s.appendByte b).tft = s.tft := by
  simp [State.appendByte]
@[simp] theorem State.appendByte_pc (s : State) (b : Byte) : (s.appendByte b).pc = s.pc := by
  simp [State.appendByte]
@[simp] theorem State.appendByte_ieDone (s : State) (b : Byte) : (s.appendByte b).ieDone = s.ieDone := by
  simp [State.appendByte]
@[simp] theorem State.appendByte_ieErr (s : State) (b : Byte) : (s.appendByte b).ieErr = s.ieErr := by
  simp [State.appendByte]
@[simp] theorem State.appendByte_busy (s : State) (b : Byte) : (s.appendByte b).busy = s.busy := by
  simp [State.appendByte]
@[simp] theorem State.appendByte_done (s : State) (b : Byte) : (s.appendByte b).done = s.done := by
  simp [State.appendByte]
@[simp] theorem State.appendByte_err (s : State) (b : Byte) : (s.appendByte b).err = s.err := by
  simp [State.appendByte]
@[simp] theorem State.appendByte_errcode (s : State) (b : Byte) : (s.appendByte b).errcode = s.errcode := by
  simp [State.appendByte]
@[simp] theorem State.appendByte_errpc (s : State) (b : Byte) : (s.appendByte b).errpc = s.errpc := by
  simp [State.appendByte]
@[simp] theorem State.appendByte_errcmd (s : State) (b : Byte) : (s.appendByte b).errcmd = s.errcmd := by
  simp [State.appendByte]
@[simp] theorem State.appendByte_dmem (s : State) (b : Byte) : (s.appendByte b).dmem = s.dmem := by
  simp [State.appendByte]
@[simp] theorem State.appendByte_turns (s : State) (b : Byte) : (s.appendByte b).turns = s.turns := by
  simp [State.appendByte]
@[simp] theorem State.appendByte_hostData (s : State) (b : Byte) : (s.appendByte b).hostData = s.hostData := by
  simp [State.appendByte]
@[simp] theorem State.appendByte_freeCtr (s : State) (b : Byte) : (s.appendByte b).freeCtr = s.freeCtr := by
  simp [State.appendByte]

/-- Appending bytes one after the other. -/
@[simp] theorem State.appendBytes_nil (s : State) : s.appendBytes [] = s := rfl

@[simp] theorem State.appendBytes_cons (s : State) (b : Byte) (bs : List Byte) :
    s.appendBytes (b :: bs) = (s.appendByte b).appendBytes bs := rfl

/-- Appending two byte strings is appending their join (43_ubi.md R217). -/
theorem State.appendBytes_append (s : State) (a b : List Byte) :
    s.appendBytes (a ++ b) = (s.appendBytes a).appendBytes b := List.foldl_append


/-! ### Appending bytes leaves -/

@[simp] theorem State.appendBytes_cfg (s : State) (bs : List Byte) : (s.appendBytes bs).cfg = s.cfg := by
  induction bs generalizing s with
  | nil => rfl
  | cons b bs ih => simp [ih]
@[simp] theorem State.appendBytes_nw (s : State) (bs : List Byte) : (s.appendBytes bs).nw = s.nw := by
  induction bs generalizing s with
  | nil => rfl
  | cons b bs ih => simp [ih]
@[simp] theorem State.appendBytes_outbits (s : State) (bs : List Byte) : (s.appendBytes bs).outbits = s.outbits := by
  induction bs generalizing s with
  | nil => rfl
  | cons b bs ih => simp [ih]
@[simp] theorem State.appendBytes_phase (s : State) (bs : List Byte) : (s.appendBytes bs).phase = s.phase := by
  induction bs generalizing s with
  | nil => rfl
  | cons b bs ih => simp [ih]
@[simp] theorem State.appendBytes_cfgstr (s : State) (bs : List Byte) : (s.appendBytes bs).cfgstr = s.cfgstr := by
  induction bs generalizing s with
  | nil => rfl
  | cons b bs ih => simp [ih]
@[simp] theorem State.appendBytes_cfgval (s : State) (bs : List Byte) : (s.appendBytes bs).cfgval = s.cfgval := by
  induction bs generalizing s with
  | nil => rfl
  | cons b bs ih => simp [ih]
@[simp] theorem State.appendBytes_tfk (s : State) (bs : List Byte) : (s.appendBytes bs).tfk = s.tfk := by
  induction bs generalizing s with
  | nil => rfl
  | cons b bs ih => simp [ih]
@[simp] theorem State.appendBytes_tft (s : State) (bs : List Byte) : (s.appendBytes bs).tft = s.tft := by
  induction bs generalizing s with
  | nil => rfl
  | cons b bs ih => simp [ih]
@[simp] theorem State.appendBytes_pc (s : State) (bs : List Byte) : (s.appendBytes bs).pc = s.pc := by
  induction bs generalizing s with
  | nil => rfl
  | cons b bs ih => simp [ih]
@[simp] theorem State.appendBytes_ieDone (s : State) (bs : List Byte) : (s.appendBytes bs).ieDone = s.ieDone := by
  induction bs generalizing s with
  | nil => rfl
  | cons b bs ih => simp [ih]
@[simp] theorem State.appendBytes_ieErr (s : State) (bs : List Byte) : (s.appendBytes bs).ieErr = s.ieErr := by
  induction bs generalizing s with
  | nil => rfl
  | cons b bs ih => simp [ih]
@[simp] theorem State.appendBytes_busy (s : State) (bs : List Byte) : (s.appendBytes bs).busy = s.busy := by
  induction bs generalizing s with
  | nil => rfl
  | cons b bs ih => simp [ih]
@[simp] theorem State.appendBytes_done (s : State) (bs : List Byte) : (s.appendBytes bs).done = s.done := by
  induction bs generalizing s with
  | nil => rfl
  | cons b bs ih => simp [ih]
@[simp] theorem State.appendBytes_err (s : State) (bs : List Byte) : (s.appendBytes bs).err = s.err := by
  induction bs generalizing s with
  | nil => rfl
  | cons b bs ih => simp [ih]
@[simp] theorem State.appendBytes_errcode (s : State) (bs : List Byte) : (s.appendBytes bs).errcode = s.errcode := by
  induction bs generalizing s with
  | nil => rfl
  | cons b bs ih => simp [ih]
@[simp] theorem State.appendBytes_errpc (s : State) (bs : List Byte) : (s.appendBytes bs).errpc = s.errpc := by
  induction bs generalizing s with
  | nil => rfl
  | cons b bs ih => simp [ih]
@[simp] theorem State.appendBytes_errcmd (s : State) (bs : List Byte) : (s.appendBytes bs).errcmd = s.errcmd := by
  induction bs generalizing s with
  | nil => rfl
  | cons b bs ih => simp [ih]
@[simp] theorem State.appendBytes_dmem (s : State) (bs : List Byte) : (s.appendBytes bs).dmem = s.dmem := by
  induction bs generalizing s with
  | nil => rfl
  | cons b bs ih => simp [ih]
@[simp] theorem State.appendBytes_turns (s : State) (bs : List Byte) : (s.appendBytes bs).turns = s.turns := by
  induction bs generalizing s with
  | nil => rfl
  | cons b bs ih => simp [ih]
@[simp] theorem State.appendBytes_hostData (s : State) (bs : List Byte) : (s.appendBytes bs).hostData = s.hostData := by
  induction bs generalizing s with
  | nil => rfl
  | cons b bs ih => simp [ih]
@[simp] theorem State.appendBytes_freeCtr (s : State) (bs : List Byte) : (s.appendBytes bs).freeCtr = s.freeCtr := by
  induction bs generalizing s with
  | nil => rfl
  | cons b bs ih => simp [ih]

/-! ### Appending bits leaves -/

@[simp] theorem State.appendBits_cfg (s : State) (l : Nat) (bs : List Byte) : (s.appendBits l bs).cfg = s.cfg := by
  unfold State.appendBits; split <;> simp
@[simp] theorem State.appendBits_nw (s : State) (l : Nat) (bs : List Byte) : (s.appendBits l bs).nw = s.nw := by
  unfold State.appendBits; split <;> simp
@[simp] theorem State.appendBits_outbits (s : State) (l : Nat) (bs : List Byte) : (s.appendBits l bs).outbits = s.outbits := by
  unfold State.appendBits; split <;> simp
@[simp] theorem State.appendBits_phase (s : State) (l : Nat) (bs : List Byte) : (s.appendBits l bs).phase = s.phase := by
  unfold State.appendBits; split <;> simp
@[simp] theorem State.appendBits_cfgstr (s : State) (l : Nat) (bs : List Byte) : (s.appendBits l bs).cfgstr = s.cfgstr := by
  unfold State.appendBits; split <;> simp
@[simp] theorem State.appendBits_cfgval (s : State) (l : Nat) (bs : List Byte) : (s.appendBits l bs).cfgval = s.cfgval := by
  unfold State.appendBits; split <;> simp
@[simp] theorem State.appendBits_tfk (s : State) (l : Nat) (bs : List Byte) : (s.appendBits l bs).tfk = s.tfk := by
  unfold State.appendBits; split <;> simp
@[simp] theorem State.appendBits_tft (s : State) (l : Nat) (bs : List Byte) : (s.appendBits l bs).tft = s.tft := by
  unfold State.appendBits; split <;> simp
@[simp] theorem State.appendBits_pc (s : State) (l : Nat) (bs : List Byte) : (s.appendBits l bs).pc = s.pc := by
  unfold State.appendBits; split <;> simp
@[simp] theorem State.appendBits_ieDone (s : State) (l : Nat) (bs : List Byte) : (s.appendBits l bs).ieDone = s.ieDone := by
  unfold State.appendBits; split <;> simp
@[simp] theorem State.appendBits_ieErr (s : State) (l : Nat) (bs : List Byte) : (s.appendBits l bs).ieErr = s.ieErr := by
  unfold State.appendBits; split <;> simp
@[simp] theorem State.appendBits_busy (s : State) (l : Nat) (bs : List Byte) : (s.appendBits l bs).busy = s.busy := by
  unfold State.appendBits; split <;> simp
@[simp] theorem State.appendBits_done (s : State) (l : Nat) (bs : List Byte) : (s.appendBits l bs).done = s.done := by
  unfold State.appendBits; split <;> simp
@[simp] theorem State.appendBits_err (s : State) (l : Nat) (bs : List Byte) : (s.appendBits l bs).err = s.err := by
  unfold State.appendBits; split <;> simp
@[simp] theorem State.appendBits_errcode (s : State) (l : Nat) (bs : List Byte) : (s.appendBits l bs).errcode = s.errcode := by
  unfold State.appendBits; split <;> simp
@[simp] theorem State.appendBits_errpc (s : State) (l : Nat) (bs : List Byte) : (s.appendBits l bs).errpc = s.errpc := by
  unfold State.appendBits; split <;> simp
@[simp] theorem State.appendBits_errcmd (s : State) (l : Nat) (bs : List Byte) : (s.appendBits l bs).errcmd = s.errcmd := by
  unfold State.appendBits; split <;> simp
@[simp] theorem State.appendBits_dmem (s : State) (l : Nat) (bs : List Byte) : (s.appendBits l bs).dmem = s.dmem := by
  unfold State.appendBits; split <;> simp
@[simp] theorem State.appendBits_turns (s : State) (l : Nat) (bs : List Byte) : (s.appendBits l bs).turns = s.turns := by
  unfold State.appendBits; split <;> simp
@[simp] theorem State.appendBits_hostData (s : State) (l : Nat) (bs : List Byte) : (s.appendBits l bs).hostData = s.hostData := by
  unfold State.appendBits; split <;> simp
@[simp] theorem State.appendBits_freeCtr (s : State) (l : Nat) (bs : List Byte) : (s.appendBits l bs).freeCtr = s.freeCtr := by
  unfold State.appendBits; split <;> simp

/-! ### Keying a MAC leaves -/

@[simp] theorem State.keyMac_cfg (s : State) (key : List Byte) : (s.keyMac key).cfg = s.cfg := by
  unfold State.keyMac; split <;> simp
@[simp] theorem State.keyMac_nw (s : State) (key : List Byte) : (s.keyMac key).nw = s.nw := by
  unfold State.keyMac; split <;> simp
@[simp] theorem State.keyMac_outbits (s : State) (key : List Byte) : (s.keyMac key).outbits = s.outbits := by
  unfold State.keyMac; split <;> simp
@[simp] theorem State.keyMac_phase (s : State) (key : List Byte) : (s.keyMac key).phase = s.phase := by
  unfold State.keyMac; split <;> simp
@[simp] theorem State.keyMac_cfgstr (s : State) (key : List Byte) : (s.keyMac key).cfgstr = s.cfgstr := by
  unfold State.keyMac; split <;> simp
@[simp] theorem State.keyMac_tfk (s : State) (key : List Byte) : (s.keyMac key).tfk = s.tfk := by
  unfold State.keyMac; split <;> simp
@[simp] theorem State.keyMac_tft (s : State) (key : List Byte) : (s.keyMac key).tft = s.tft := by
  unfold State.keyMac; split <;> simp
@[simp] theorem State.keyMac_pc (s : State) (key : List Byte) : (s.keyMac key).pc = s.pc := by
  unfold State.keyMac; split <;> simp
@[simp] theorem State.keyMac_ieDone (s : State) (key : List Byte) : (s.keyMac key).ieDone = s.ieDone := by
  unfold State.keyMac; split <;> simp
@[simp] theorem State.keyMac_ieErr (s : State) (key : List Byte) : (s.keyMac key).ieErr = s.ieErr := by
  unfold State.keyMac; split <;> simp
@[simp] theorem State.keyMac_busy (s : State) (key : List Byte) : (s.keyMac key).busy = s.busy := by
  unfold State.keyMac; split <;> simp
@[simp] theorem State.keyMac_done (s : State) (key : List Byte) : (s.keyMac key).done = s.done := by
  unfold State.keyMac; split <;> simp
@[simp] theorem State.keyMac_err (s : State) (key : List Byte) : (s.keyMac key).err = s.err := by
  unfold State.keyMac; split <;> simp
@[simp] theorem State.keyMac_errcode (s : State) (key : List Byte) : (s.keyMac key).errcode = s.errcode := by
  unfold State.keyMac; split <;> simp
@[simp] theorem State.keyMac_errpc (s : State) (key : List Byte) : (s.keyMac key).errpc = s.errpc := by
  unfold State.keyMac; split <;> simp
@[simp] theorem State.keyMac_errcmd (s : State) (key : List Byte) : (s.keyMac key).errcmd = s.errcmd := by
  unfold State.keyMac; split <;> simp
@[simp] theorem State.keyMac_dmem (s : State) (key : List Byte) : (s.keyMac key).dmem = s.dmem := by
  unfold State.keyMac; split <;> simp
@[simp] theorem State.keyMac_turns (s : State) (key : List Byte) : (s.keyMac key).turns = s.turns := by
  unfold State.keyMac; split <;> simp
@[simp] theorem State.keyMac_hostData (s : State) (key : List Byte) : (s.keyMac key).hostData = s.hostData := by
  unfold State.keyMac; split <;> simp
@[simp] theorem State.keyMac_freeCtr (s : State) (key : List Byte) : (s.keyMac key).freeCtr = s.freeCtr := by
  unfold State.keyMac; split <;> simp

/-! ### INIT leaves -/

@[simp] theorem State.initMode_cfg (s : State) (a : BitVec 8) : (s.initMode a).cfg = s.cfg := by
  unfold State.initMode; repeat' split
  all_goals rfl
@[simp] theorem State.initMode_nw (s : State) (a : BitVec 8) : (s.initMode a).nw = s.nw := by
  unfold State.initMode; repeat' split
  all_goals rfl
@[simp] theorem State.initMode_outbits (s : State) (a : BitVec 8) : (s.initMode a).outbits = s.outbits := by
  unfold State.initMode; repeat' split
  all_goals rfl
@[simp] theorem State.initMode_ibuf (s : State) (a : BitVec 8) : (s.initMode a).ibuf = s.ibuf := by
  unfold State.initMode; repeat' split
  all_goals rfl
@[simp] theorem State.initMode_phase (s : State) (a : BitVec 8) : (s.initMode a).phase = s.phase := by
  unfold State.initMode; repeat' split
  all_goals rfl
@[simp] theorem State.initMode_cfgstr (s : State) (a : BitVec 8) : (s.initMode a).cfgstr = s.cfgstr := by
  unfold State.initMode; repeat' split
  all_goals rfl
@[simp] theorem State.initMode_tfk (s : State) (a : BitVec 8) : (s.initMode a).tfk = s.tfk := by
  unfold State.initMode; repeat' split
  all_goals rfl
@[simp] theorem State.initMode_tft (s : State) (a : BitVec 8) : (s.initMode a).tft = s.tft := by
  unfold State.initMode; repeat' split
  all_goals rfl
@[simp] theorem State.initMode_pc (s : State) (a : BitVec 8) : (s.initMode a).pc = s.pc := by
  unfold State.initMode; repeat' split
  all_goals rfl
@[simp] theorem State.initMode_ieDone (s : State) (a : BitVec 8) : (s.initMode a).ieDone = s.ieDone := by
  unfold State.initMode; repeat' split
  all_goals rfl
@[simp] theorem State.initMode_ieErr (s : State) (a : BitVec 8) : (s.initMode a).ieErr = s.ieErr := by
  unfold State.initMode; repeat' split
  all_goals rfl
@[simp] theorem State.initMode_busy (s : State) (a : BitVec 8) : (s.initMode a).busy = s.busy := by
  unfold State.initMode; repeat' split
  all_goals rfl
@[simp] theorem State.initMode_done (s : State) (a : BitVec 8) : (s.initMode a).done = s.done := by
  unfold State.initMode; repeat' split
  all_goals rfl
@[simp] theorem State.initMode_err (s : State) (a : BitVec 8) : (s.initMode a).err = s.err := by
  unfold State.initMode; repeat' split
  all_goals rfl
@[simp] theorem State.initMode_errcode (s : State) (a : BitVec 8) : (s.initMode a).errcode = s.errcode := by
  unfold State.initMode; repeat' split
  all_goals rfl
@[simp] theorem State.initMode_errpc (s : State) (a : BitVec 8) : (s.initMode a).errpc = s.errpc := by
  unfold State.initMode; repeat' split
  all_goals rfl
@[simp] theorem State.initMode_errcmd (s : State) (a : BitVec 8) : (s.initMode a).errcmd = s.errcmd := by
  unfold State.initMode; repeat' split
  all_goals rfl
@[simp] theorem State.initMode_dmem (s : State) (a : BitVec 8) : (s.initMode a).dmem = s.dmem := by
  unfold State.initMode; repeat' split
  all_goals rfl
@[simp] theorem State.initMode_turns (s : State) (a : BitVec 8) : (s.initMode a).turns = s.turns := by
  unfold State.initMode; repeat' split
  all_goals rfl
@[simp] theorem State.initMode_hostData (s : State) (a : BitVec 8) : (s.initMode a).hostData = s.hostData := by
  unfold State.initMode; repeat' split
  all_goals rfl
@[simp] theorem State.initMode_freeCtr (s : State) (a : BitVec 8) : (s.initMode a).freeCtr = s.freeCtr := by
  unfold State.initMode; repeat' split
  all_goals rfl

/-! ### CREATE leaves -/

@[simp] theorem State.createEngine_cfg (s : State) (a : BitVec 8) (imm : BitVec 32) : (s.createEngine a imm).cfg = s.cfg := by
  cases s; rfl
@[simp] theorem State.createEngine_pc (s : State) (a : BitVec 8) (imm : BitVec 32) : (s.createEngine a imm).pc = s.pc := by
  cases s; rfl
@[simp] theorem State.createEngine_ieDone (s : State) (a : BitVec 8) (imm : BitVec 32) : (s.createEngine a imm).ieDone = s.ieDone := by
  cases s; rfl
@[simp] theorem State.createEngine_ieErr (s : State) (a : BitVec 8) (imm : BitVec 32) : (s.createEngine a imm).ieErr = s.ieErr := by
  cases s; rfl
@[simp] theorem State.createEngine_busy (s : State) (a : BitVec 8) (imm : BitVec 32) : (s.createEngine a imm).busy = s.busy := by
  cases s; rfl
@[simp] theorem State.createEngine_done (s : State) (a : BitVec 8) (imm : BitVec 32) : (s.createEngine a imm).done = s.done := by
  cases s; rfl
@[simp] theorem State.createEngine_err (s : State) (a : BitVec 8) (imm : BitVec 32) : (s.createEngine a imm).err = s.err := by
  cases s; rfl
@[simp] theorem State.createEngine_errcode (s : State) (a : BitVec 8) (imm : BitVec 32) : (s.createEngine a imm).errcode = s.errcode := by
  cases s; rfl
@[simp] theorem State.createEngine_errpc (s : State) (a : BitVec 8) (imm : BitVec 32) : (s.createEngine a imm).errpc = s.errpc := by
  cases s; rfl
@[simp] theorem State.createEngine_errcmd (s : State) (a : BitVec 8) (imm : BitVec 32) : (s.createEngine a imm).errcmd = s.errcmd := by
  cases s; rfl
@[simp] theorem State.createEngine_dmem (s : State) (a : BitVec 8) (imm : BitVec 32) : (s.createEngine a imm).dmem = s.dmem := by
  cases s; rfl
@[simp] theorem State.createEngine_turns (s : State) (a : BitVec 8) (imm : BitVec 32) : (s.createEngine a imm).turns = s.turns := by
  cases s; rfl
@[simp] theorem State.createEngine_hostData (s : State) (a : BitVec 8) (imm : BitVec 32) : (s.createEngine a imm).hostData = s.hostData := by
  cases s; rfl
@[simp] theorem State.createEngine_freeCtr (s : State) (a : BitVec 8) (imm : BitVec 32) : (s.createEngine a imm).freeCtr = s.freeCtr := by
  cases s; rfl

/-! ### DOFINAL leaves -/

@[simp] theorem State.finalize_cfg (s : State) (a : Nat) : (s.finalize a).cfg = s.cfg := by
  cases s; rfl
@[simp] theorem State.finalize_nw (s : State) (a : Nat) : (s.finalize a).nw = s.nw := by
  cases s; rfl
@[simp] theorem State.finalize_outbits (s : State) (a : Nat) : (s.finalize a).outbits = s.outbits := by
  cases s; rfl
@[simp] theorem State.finalize_cfgstr (s : State) (a : Nat) : (s.finalize a).cfgstr = s.cfgstr := by
  cases s; rfl
@[simp] theorem State.finalize_cfgval (s : State) (a : Nat) : (s.finalize a).cfgval = s.cfgval := by
  cases s; rfl
@[simp] theorem State.finalize_tfk (s : State) (a : Nat) : (s.finalize a).tfk = s.tfk := by
  cases s; rfl
@[simp] theorem State.finalize_tft (s : State) (a : Nat) : (s.finalize a).tft = s.tft := by
  cases s; rfl
@[simp] theorem State.finalize_pc (s : State) (a : Nat) : (s.finalize a).pc = s.pc := by
  cases s; rfl
@[simp] theorem State.finalize_ieDone (s : State) (a : Nat) : (s.finalize a).ieDone = s.ieDone := by
  cases s; rfl
@[simp] theorem State.finalize_ieErr (s : State) (a : Nat) : (s.finalize a).ieErr = s.ieErr := by
  cases s; rfl
@[simp] theorem State.finalize_busy (s : State) (a : Nat) : (s.finalize a).busy = s.busy := by
  cases s; rfl
@[simp] theorem State.finalize_done (s : State) (a : Nat) : (s.finalize a).done = s.done := by
  cases s; rfl
@[simp] theorem State.finalize_err (s : State) (a : Nat) : (s.finalize a).err = s.err := by
  cases s; rfl
@[simp] theorem State.finalize_errcode (s : State) (a : Nat) : (s.finalize a).errcode = s.errcode := by
  cases s; rfl
@[simp] theorem State.finalize_errpc (s : State) (a : Nat) : (s.finalize a).errpc = s.errpc := by
  cases s; rfl
@[simp] theorem State.finalize_errcmd (s : State) (a : Nat) : (s.finalize a).errcmd = s.errcmd := by
  cases s; rfl
@[simp] theorem State.finalize_turns (s : State) (a : Nat) : (s.finalize a).turns = s.turns := by
  cases s; rfl
@[simp] theorem State.finalize_hostData (s : State) (a : Nat) : (s.finalize a).hostData = s.hostData := by
  cases s; rfl
@[simp] theorem State.finalize_freeCtr (s : State) (a : Nat) : (s.finalize a).freeCtr = s.freeCtr := by
  cases s; rfl

/-! ### What the composed operations write -/

/-- The tweak register that StartType(Message) leaves (41_tweak.md R153). -/
theorem State.startType_message (s : State) : (s.startType 48).t1 = 0x7000000000000000 := by
  show (BitVec.setWidth 64 (48#8) <<< 56) ||| ((1 : Word) <<< 62) = _
  decide

@[simp] theorem State.initMode_t0 (s : State) (a : BitVec 8) : (s.initMode a).t0 = 0 := by
  unfold State.initMode; repeat' split
  all_goals rfl
@[simp] theorem State.initMode_t1 (s : State) (a : BitVec 8) : (s.initMode a).t1 = (s.startType 48).t1 := by
  unfold State.initMode; repeat' split
  all_goals rfl
@[simp] theorem State.initMode_fill (s : State) (a : BitVec 8) : (s.initMode a).fill = 0 := by
  unfold State.initMode; repeat' split
  all_goals rfl

/-- INIT chainedcfg derives CFGVAL from STATE (43_ubi.md R220). -/
theorem State.initMode_three (s : State) : s.initMode 3 = (s.genConfig s.chainWords).initNormal := rfl

/-- INIT's other modes leave CFGVAL (43_ubi.md R220). -/
theorem State.initMode_cfgval (s : State) (a : BitVec 8) (h : a = 0 ∨ a = 1 ∨ a = 2) :
    (s.initMode a).cfgval = s.cfgval := by
  rcases h with rfl | rfl | rfl <;> rfl

@[simp] theorem State.keyMac_t0 (s : State) (key : List Byte) : (s.keyMac key).t0 = 0 := by
  unfold State.keyMac; split <;> simp
@[simp] theorem State.keyMac_t1 (s : State) (key : List Byte) : (s.keyMac key).t1 = (s.startType 48).t1 := by
  unfold State.keyMac; split <;> simp [State.startType]
@[simp] theorem State.keyMac_fill (s : State) (key : List Byte) : (s.keyMac key).fill = 0 := by
  unfold State.keyMac; split <;> simp

@[simp] theorem State.createEngine_nw (s : State) (a : BitVec 8) (imm : BitVec 32) : (s.createEngine a imm).nw = a := by
  cases s; rfl
@[simp] theorem State.createEngine_outbits (s : State) (a : BitVec 8) (imm : BitVec 32) :
    (s.createEngine a imm).outbits = imm := by cases s; rfl
@[simp] theorem State.createEngine_t0 (s : State) (a : BitVec 8) (imm : BitVec 32) : (s.createEngine a imm).t0 = 0 := by
  cases s; rfl
@[simp] theorem State.createEngine_t1 (s : State) (a : BitVec 8) (imm : BitVec 32) :
    (s.createEngine a imm).t1 = (s.startType 48).t1 := by cases s; rfl
@[simp] theorem State.createEngine_ibuf (s : State) (a : BitVec 8) (imm : BitVec 32) :
    (s.createEngine a imm).ibuf = Vector.replicate 128 0 := by cases s; rfl
@[simp] theorem State.createEngine_fill (s : State) (a : BitVec 8) (imm : BitVec 32) :
    (s.createEngine a imm).fill = 0 := by cases s; rfl
@[simp] theorem State.createEngine_phase (s : State) (a : BitVec 8) (imm : BitVec 32) :
    (s.createEngine a imm).phase = .accum := by cases s; rfl
@[simp] theorem State.createEngine_cfgstr (s : State) (a : BitVec 8) (imm : BitVec 32) :
    (s.createEngine a imm).cfgstr = defaultConfig imm := by cases s; rfl
@[simp] theorem State.createEngine_tfk (s : State) (a : BitVec 8) (imm : BitVec 32) :
    (s.createEngine a imm).tfk = Vector.replicate 16 0 := by cases s; rfl
@[simp] theorem State.createEngine_tft (s : State) (a : BitVec 8) (imm : BitVec 32) :
    (s.createEngine a imm).tft = Vector.replicate 2 0 := by cases s; rfl

/-- DOFINAL's store, its digest taken from the state that the last block leaves (44_output.md R255). -/
theorem State.finalize_dmem (s : State) (a : Nat) :
    (s.finalize a).dmem = s.dmem.writeBytes a (digest s.words s.finish.chainWords s.digestBytes) := by cases s; rfl
/-- DOFINAL's restart: STATE from CFGVAL (44_output.md R255, 43_ubi.md R214). -/
theorem State.finalize_chain (s : State) (a : Nat) :
    (s.finalize a).chain = putFirst (takeFirst s.words s.cfgval) s.finish.chain := by cases s; rfl
@[simp] theorem State.finalize_t0 (s : State) (a : Nat) : (s.finalize a).t0 = 0 := by cases s; rfl
@[simp] theorem State.finalize_t1 (s : State) (a : Nat) : (s.finalize a).t1 = (s.startType 48).t1 := by cases s; rfl
@[simp] theorem State.finalize_ibuf (s : State) (a : Nat) : (s.finalize a).ibuf = s.zeroPad.ibuf := by cases s; rfl
@[simp] theorem State.finalize_fill (s : State) (a : Nat) : (s.finalize a).fill = 0 := by cases s; rfl
@[simp] theorem State.finalize_phase (s : State) (a : Nat) : (s.finalize a).phase = .accum := by cases s; rfl

/-! ### Nw and Nb through the operations -/

theorem State.words_eq (s : State) : s.words = s.nw.toNat := rfl

theorem State.blockBytes_eq (s : State) : s.blockBytes = 8 * s.nw.toNat := rfl

end Sys2Proof.Machine
end

