-- ==== Sys2Proof/Laws/Memory.lean ====
section
/-! SUPPORT. What reading and writing memory do: a read after a write, every other byte unchanged, the canonical form kept, and
canonical memories that read alike are equal. -/

namespace Sys2Proof.Machine

/-- Below every listed address a memory reads as unwritten. -/
theorem Memory.read_of_lt (m : Memory) (a : Nat) (h : ∀ c ∈ m, a < c.1) : m.read a = Memory.unwritten := by
  induction m with
  | nil => rfl
  | cons c m ih =>
    have hc := h c (by simp)
    simp only [Memory.read]
    rw [if_neg (by omega)]
    exact ih fun d hd => h d (by simp [hd])

/-- The addresses of a canonical list's tail lie above its head. -/
theorem Memory.wf_tail {c : Host.Cell} {m : Memory} (h : Memory.wf (c :: m)) :
    Memory.wf m ∧ ∀ d ∈ m, c.1 < d.1 := by
  obtain ⟨hp, hz⟩ := h
  rw [List.pairwise_cons] at hp
  exact ⟨⟨hp.2, fun d hd => hz d (by simp [hd])⟩, hp.1⟩

/-- A write stores nothing but at its address: the cells after it are old ones or the new one. -/
theorem Memory.mem_write {m : Memory} {a : Nat} {b : Byte} {c : Host.Cell} (h : c ∈ m.write a b) :
    c ∈ m ∨ (c = (a, b) ∧ b ≠ Memory.unwritten) := by
  induction m with
  | nil =>
    unfold Memory.write at h
    split at h <;> simp_all
  | cons d m ih =>
    simp only [Memory.write] at h
    split at h
    · split at h
      · exact .inl h
      · rcases List.mem_cons.mp h with h | h
        · exact .inr ⟨h, by assumption⟩
        · exact .inl h
    · split at h
      · split at h
        · exact .inl (by simp [h])
        · rcases List.mem_cons.mp h with h | h
          · exact .inr ⟨h, by assumption⟩
          · exact .inl (by simp [h])
      · rcases List.mem_cons.mp h with h | h
        · exact .inl (by simp [h])
        · rcases ih h with h | h
          · exact .inl (by simp [h])
          · exact .inr h

/-- A write keeps the canonical form. -/
theorem Memory.wf_write {m : Memory} (h : m.wf) (a : Nat) (b : Byte) : (m.write a b).wf := by
  induction m with
  | nil =>
    unfold Memory.write
    split
    · exact h
    · rename_i hb; exact ⟨by simp, by simpa using hb⟩
  | cons d m ih =>
    obtain ⟨ht, hd⟩ := Memory.wf_tail h
    have hz := h.2 d (by simp)
    simp only [Memory.write]
    split
    · rename_i ha
      split
      · exact h
      · rename_i hb
        refine ⟨List.pairwise_cons.mpr ⟨?_, h.1⟩, ?_⟩
        · intro c hc
          rcases List.mem_cons.mp hc with rfl | hc
          · exact ha
          · exact Nat.lt_trans ha (hd c hc)
        · intro c hc
          rcases List.mem_cons.mp hc with rfl | hc
          · exact hb
          · exact h.2 c hc
    · split
      · rename_i hn ha
        split
        · exact ht
        · rename_i hb
          refine ⟨List.pairwise_cons.mpr ⟨fun c hc => ?_, ht.1⟩, fun c hc => ?_⟩
          · exact ha ▸ hd c hc
          · rcases List.mem_cons.mp hc with rfl | hc
            · exact hb
            · exact ht.2 c hc
      · rename_i hn hne
        refine ⟨List.pairwise_cons.mpr ⟨fun c hc => ?_, (ih ht).1⟩, fun c hc => ?_⟩
        · rcases Memory.mem_write hc with hc | ⟨rfl, -⟩
          · exact hd c hc
          · show d.1 < a
            omega
        · rcases List.mem_cons.mp hc with rfl | hc
          · exact hz
          · exact (ih ht).2 c hc

/-- A read after a write: the written byte at its address, the old byte everywhere else. -/
theorem Memory.read_write {m : Memory} (h : m.wf) (a : Nat) (b : Byte) (x : Nat) :
    (m.write a b).read x = if x = a then b else m.read x := by
  induction m with
  | nil =>
    unfold Memory.write
    by_cases hx : x = a
    · subst hx
      by_cases hb : b = Memory.unwritten <;> simp [hb, Memory.read]
    · by_cases hb : b = Memory.unwritten <;> simp [hb, hx, Ne.symm hx, Memory.read]
  | cons d m ih =>
    obtain ⟨ht, hd⟩ := Memory.wf_tail h
    simp only [Memory.write]
    split
    · rename_i ha
      split
      · rename_i hb
        split
        · rename_i hx
          subst hx
          rw [hb]
          exact Memory.read_of_lt _ _ fun c hc => by
            rcases List.mem_cons.mp hc with rfl | hc
            · exact ha
            · exact Nat.lt_trans ha (hd c hc)
        · rfl
      · by_cases hx : x = a
        · simp [Memory.read, hx]
        · rw [if_neg hx]
          show (if a = x then b else Memory.read (d :: m) x) = _
          rw [if_neg (Ne.symm hx)]
    · split
      · rename_i hn ha
        by_cases hx : x = a
        · subst hx
          split
          · rename_i hb
            rw [if_pos rfl, hb]
            exact Memory.read_of_lt _ _ fun c hc => ha ▸ hd c hc
          · simp [Memory.read]
        · have hdx : ¬ d.1 = x := by omega
          rw [if_neg hx]
          split <;> simp [Memory.read, hdx, Ne.symm hx]
      · rename_i hn hne
        by_cases hdx : d.1 = x
        · simp [Memory.read, hdx, show ¬ x = a by omega]
        · simp [Memory.read, hdx, ih ht]

/-- Writing bytes keeps the canonical form. -/
theorem Memory.wf_writeBytes {m : Memory} (h : m.wf) (a : Nat) (bs : List Byte) : (m.writeBytes a bs).wf := by
  induction bs generalizing m a with
  | nil => exact h
  | cons b bs ih => exact ih (Memory.wf_write h a b) (a + 1)

/-- Written bytes lie where they were written; the rest of memory is unchanged (20_memory.md R62). -/
theorem Memory.read_writeBytes {m : Memory} (h : m.wf) (a : Nat) (bs : List Byte) (x : Nat) :
    (m.writeBytes a bs).read x = if a ≤ x ∧ x < a + bs.length then bs.getD (x - a) 0 else m.read x := by
  induction bs generalizing m a with
  | nil =>
    have hn : ¬ (a ≤ x ∧ x < a + ([] : List Byte).length) := by simp
    rw [if_neg hn]
    rfl
  | cons b bs ih =>
    simp only [Memory.writeBytes, List.length_cons]
    rw [ih (Memory.wf_write h a b), Memory.read_write h]
    by_cases hx : x = a
    · subst hx
      simp
    · by_cases hr : a + 1 ≤ x ∧ x < a + 1 + bs.length
      · rw [if_pos hr, if_pos (by omega), show x - a = (x - (a + 1)) + 1 by omega]
        rfl
      · rw [if_neg hr, if_neg hx, if_neg (by omega)]

/-- Every cell after a write of bytes is an old one or lies in the written range. -/
theorem Memory.mem_writeBytes {m : Memory} {a : Nat} {bs : List Byte} {c : Host.Cell} (h : c ∈ m.writeBytes a bs) :
    c ∈ m ∨ (a ≤ c.1 ∧ c.1 < a + bs.length) := by
  induction bs generalizing m a with
  | nil => exact .inl h
  | cons b bs ih =>
    rcases ih h with h | h
    · rcases Memory.mem_write h with h | ⟨rfl, -⟩
      · exact .inl h
      · exact .inr (by simp)
    · exact .inr (by simp only [List.length_cons]; omega)

/-- As many bytes are read as asked for. -/
@[simp] theorem Memory.readBytes_length (m : Memory) (a n : Nat) : (m.readBytes a n).length = n := by
  simp [Memory.readBytes]

/-- Byte `j` of a read of `n` bytes. -/
theorem Memory.readBytes_getD (m : Memory) (a n j : Nat) (h : j < n) : (m.readBytes a n).getD j 0 = m.read (a + j) := by
  simp [Memory.readBytes, h]

/-- Reading the bytes just written gives them back. -/
theorem Memory.readBytes_writeBytes {m : Memory} (h : m.wf) (a : Nat) (bs : List Byte) :
    (m.writeBytes a bs).readBytes a bs.length = bs := by
  refine List.ext_getElem (by simp [Memory.readBytes]) fun i h1 h2 => ?_
  simp [Memory.readBytes, Memory.read_writeBytes h, h2]

/-- A canonical memory that reads as unwritten everywhere lists nothing. -/
theorem Memory.eq_nil_of_read {m : Memory} (h : m.wf) (hr : ∀ x, m.read x = Memory.unwritten) : m = [] := by
  cases m with
  | nil => rfl
  | cons c m => exact absurd (by simpa [Memory.read] using hr c.1) (h.2 c (by simp))

/-- Canonical memories that read alike are equal. -/
theorem Memory.ext_read {m n : Memory} (hm : m.wf) (hn : n.wf) (hr : ∀ x, m.read x = n.read x) : m = n := by
  induction m generalizing n with
  | nil => exact (Memory.eq_nil_of_read hn fun x => (hr x).symm).symm
  | cons c m ih =>
    cases n with
    | nil => exact Memory.eq_nil_of_read hm fun x => hr x
    | cons d n =>
      obtain ⟨tm, gm⟩ := Memory.wf_tail hm
      obtain ⟨tn, gn⟩ := Memory.wf_tail hn
      have zc := hm.2 c (by simp)
      have zd := hn.2 d (by simp)
      have hcd : c.1 = d.1 := by
        rcases Nat.lt_trichotomy c.1 d.1 with hlt | heq | hgt
        · refine absurd ?_ zc
          have := hr c.1
          rw [Memory.read_of_lt (d :: n) c.1 (fun e he => by
            rcases List.mem_cons.mp he with rfl | he
            · exact hlt
            · exact Nat.lt_trans hlt (gn e he))] at this
          simpa [Memory.read] using this
        · exact heq
        · refine absurd ?_ zd
          have := (hr d.1).symm
          rw [Memory.read_of_lt (c :: m) d.1 (fun e he => by
            rcases List.mem_cons.mp he with rfl | he
            · exact hgt
            · exact Nat.lt_trans hgt (gm e he))] at this
          simpa [Memory.read] using this
      have hb : c.2 = d.2 := by simpa [Memory.read, hcd] using hr c.1
      have ht : m = n := ih tm tn fun x => by
        by_cases hx : c.1 = x
        · rw [Memory.read_of_lt m x fun e he => hx ▸ gm e he,
            Memory.read_of_lt n x fun e he => hx ▸ hcd ▸ gn e he]
        · have := hr x
          simpa [Memory.read, hx, hcd ▸ hx] using this
      rw [ht, Prod.ext hcd hb]

/-- The machine's DMEM after a write. -/
theorem State.memWrite_read {s : State} (h : s.dmem.wf) (a : Nat) (bs : List Byte) (x : Nat) :
    (s.memWrite a bs).dmem.read x = if a ≤ x ∧ x < a + bs.length then bs.getD (x - a) 0 else s.dmem.read x :=
  Memory.read_writeBytes h a bs x

/-- As many bytes are read as asked for. -/
@[simp] theorem State.memRead_length (s : State) (a n : Nat) : (s.memRead a n).length = n := by
  simp [State.memRead, Memory.readBytes]

end Sys2Proof.Machine
end

