-- ==== Sys2Proof/Laws/PerInstr.lean ====
section
/-! SUPPORT. The statements made for every instruction, one lemma per constructor. -/

namespace Sys2Proof.Laws

/-- A word of joined parts under a mask of joined parts. -/
theorem append_and {m n : Nat} (x p : BitVec m) (y q : BitVec n) : (x ++ y) &&& (p ++ q) = (x &&& p) ++ (y &&& q) := by
  refine BitVec.eq_of_getLsbD_eq fun i _ => ?_
  simp only [BitVec.getLsbD_and, BitVec.getLsbD_append]
  split <;> rfl

/-- A format I word under the mask of its fields A and IMM. -/
theorem packI_and (op : Opcode) (a ma : BitVec 8) (imm mi : BitVec 32) :
    packI op a imm &&& (mi ++ 0xFFFF#16 ++ ma ++ 0xFF#8) = packI op (a &&& ma) (imm &&& mi) := by
  unfold packI
  rw [append_and, append_and, append_and, BitVec.zero_and, show (0xFF#8) = BitVec.allOnes 8 from rfl,
    BitVec.and_allOnes]

/-- A format C word under the mask of its fields ADDR and LEN. -/
theorem packC_and (op : Opcode) (addr ma len ml : Addr) :
    packC op addr len &&& (ml ++ ma ++ 0xFF#8 ++ 0xFF#8) = packC op (addr &&& ma) (len &&& ml) := by
  unfold packC
  rw [append_and, append_and, append_and, BitVec.zero_and, show (0xFF#8) = BitVec.allOnes 8 from rfl,
    BitVec.and_allOnes]

/-- The columns "match" and "mask" of spec/opcode_table.json, transcribed row by row. -/
def tableRow : Instr → Word × Word
  | .halt => (0x0000000000000000, 0xFFFFFFFFFFFFFFFF)
  | .nop => (0x0000000000000001, 0xFFFFFFFFFFFFFFFF)
  | .create .. => (0x0000000000000010, 0x00000000FFFF00FF)
  | .setschema .. => (0x0000000000000011, 0x000000000000FFFF)
  | .setver .. => (0x0000000000000012, 0x00000000FFFFFFFF)
  | .setleaf .. => (0x0000000000000013, 0xFFFFFFFFFFFF00FF)
  | .setfan .. => (0x0000000000000014, 0xFFFFFFFFFFFF00FF)
  | .setheight .. => (0x0000000000000015, 0xFFFFFFFFFFFF00FF)
  | .gencfg .. => (0x0000000000000016, 0xFFFFFFFFFFFF00FF)
  | .mackey .. => (0x0000000000000018, 0x000000000000FFFF)
  | .init .. => (0x0000000000000020, 0xFFFFFFFFFFFF00FF)
  | .ldstate .. => (0x0000000000000021, 0x000000000000FFFF)
  | .ststate .. => (0x0000000000000022, 0x000000000000FFFF)
  | .update .. => (0x0000000000000028, 0x000000000000FFFF)
  | .updbits .. => (0x0000000000000029, 0x000000000000FFFF)
  | .ubifin => (0x000000000000002A, 0xFFFFFFFFFFFFFFFF)
  | .dofinal .. => (0x000000000000002B, 0xFFFFFF000000FFFF)
  | .twstart .. => (0x0000000000000030, 0xFFFFFFFFFFFF00FF)
  | .twflag .. => (0x0000000000000031, 0x00000000FFFF00FF)
  | .twlevel .. => (0x0000000000000032, 0xFFFFFFFFFFFF00FF)
  | .twadd .. => (0x0000000000000033, 0x00000000FFFFFFFF)
  | .sttweak .. => (0x0000000000000034, 0x000000000000FFFF)
  | .tfkey .. => (0x0000000000000038, 0x000000000000FFFF)
  | .tftweak .. => (0x0000000000000039, 0x000000000000FFFF)
  | .tfenc .. => (0x000000000000003A, 0xFFFFFF000000FFFF)

/-- The encoding of a command agrees with its row of the opcode table: the bits that the mask fixes are the match's. -/
def MatchesTable.Statement (i : Instr) : Prop := encode i &&& (tableRow i).2 = (tableRow i).1

theorem MatchesTable.halt : MatchesTable.Statement .halt := by
  show encode .halt &&& _ = _
  decide

theorem MatchesTable.nop : MatchesTable.Statement .nop := by
  show encode .nop &&& _ = _
  decide

theorem MatchesTable.create (a : BitVec 8) (imm : BitVec 32) : MatchesTable.Statement (.create a imm) := by
  have h := packI_and .create a 0x0 imm 0x0
  simpa [MatchesTable.Statement, tableRow, encode, packI, packC, Opcode.code] using h

theorem MatchesTable.setschema (addr len : Addr) : MatchesTable.Statement (.setschema addr len) := by
  have h := packC_and .setschema addr 0x0 len 0x0
  simpa [MatchesTable.Statement, tableRow, encode, packI, packC, Opcode.code] using h

theorem MatchesTable.setver (imm : BitVec 32) : MatchesTable.Statement (.setver imm) := by
  have h := packI_and .setver 0 0xFF imm 0x0
  simpa [MatchesTable.Statement, tableRow, encode, packI, packC, Opcode.code] using h

theorem MatchesTable.setleaf (a : BitVec 8) : MatchesTable.Statement (.setleaf a) := by
  have h := packI_and .setleaf a 0x0 0 0xFFFFFFFF
  simpa [MatchesTable.Statement, tableRow, encode, packI, packC, Opcode.code] using h

theorem MatchesTable.setfan (a : BitVec 8) : MatchesTable.Statement (.setfan a) := by
  have h := packI_and .setfan a 0x0 0 0xFFFFFFFF
  simpa [MatchesTable.Statement, tableRow, encode, packI, packC, Opcode.code] using h

theorem MatchesTable.setheight (a : BitVec 8) : MatchesTable.Statement (.setheight a) := by
  have h := packI_and .setheight a 0x0 0 0xFFFFFFFF
  simpa [MatchesTable.Statement, tableRow, encode, packI, packC, Opcode.code] using h

theorem MatchesTable.gencfg (a : BitVec 8) : MatchesTable.Statement (.gencfg a) := by
  have h := packI_and .gencfg a 0x0 0 0xFFFFFFFF
  simpa [MatchesTable.Statement, tableRow, encode, packI, packC, Opcode.code] using h

theorem MatchesTable.mackey (addr len : Addr) : MatchesTable.Statement (.mackey addr len) := by
  have h := packC_and .mackey addr 0x0 len 0x0
  simpa [MatchesTable.Statement, tableRow, encode, packI, packC, Opcode.code] using h

theorem MatchesTable.init (a : BitVec 8) : MatchesTable.Statement (.init a) := by
  have h := packI_and .init a 0x0 0 0xFFFFFFFF
  simpa [MatchesTable.Statement, tableRow, encode, packI, packC, Opcode.code] using h

theorem MatchesTable.ldstate (addr len : Addr) : MatchesTable.Statement (.ldstate addr len) := by
  have h := packC_and .ldstate addr 0x0 len 0x0
  simpa [MatchesTable.Statement, tableRow, encode, packI, packC, Opcode.code] using h

theorem MatchesTable.ststate (addr len : Addr) : MatchesTable.Statement (.ststate addr len) := by
  have h := packC_and .ststate addr 0x0 len 0x0
  simpa [MatchesTable.Statement, tableRow, encode, packI, packC, Opcode.code] using h

theorem MatchesTable.update (addr len : Addr) : MatchesTable.Statement (.update addr len) := by
  have h := packC_and .update addr 0x0 len 0x0
  simpa [MatchesTable.Statement, tableRow, encode, packI, packC, Opcode.code] using h

theorem MatchesTable.updbits (addr len : Addr) : MatchesTable.Statement (.updbits addr len) := by
  have h := packC_and .updbits addr 0x0 len 0x0
  simpa [MatchesTable.Statement, tableRow, encode, packI, packC, Opcode.code] using h

theorem MatchesTable.ubifin : MatchesTable.Statement .ubifin := by
  show encode .ubifin &&& _ = _
  decide

theorem MatchesTable.dofinal (addr : Addr) : MatchesTable.Statement (.dofinal addr) := by
  have h := packC_and .dofinal addr 0x0 0 0xFFFFFF
  simpa [MatchesTable.Statement, tableRow, encode, packI, packC, Opcode.code] using h

theorem MatchesTable.twstart (a : BitVec 8) : MatchesTable.Statement (.twstart a) := by
  have h := packI_and .twstart a 0x0 0 0xFFFFFFFF
  simpa [MatchesTable.Statement, tableRow, encode, packI, packC, Opcode.code] using h

theorem MatchesTable.twflag (a : BitVec 8) (imm : BitVec 32) : MatchesTable.Statement (.twflag a imm) := by
  have h := packI_and .twflag a 0x0 imm 0x0
  simpa [MatchesTable.Statement, tableRow, encode, packI, packC, Opcode.code] using h

theorem MatchesTable.twlevel (a : BitVec 8) : MatchesTable.Statement (.twlevel a) := by
  have h := packI_and .twlevel a 0x0 0 0xFFFFFFFF
  simpa [MatchesTable.Statement, tableRow, encode, packI, packC, Opcode.code] using h

theorem MatchesTable.twadd (imm : BitVec 32) : MatchesTable.Statement (.twadd imm) := by
  have h := packI_and .twadd 0 0xFF imm 0x0
  simpa [MatchesTable.Statement, tableRow, encode, packI, packC, Opcode.code] using h

theorem MatchesTable.sttweak (addr len : Addr) : MatchesTable.Statement (.sttweak addr len) := by
  have h := packC_and .sttweak addr 0x0 len 0x0
  simpa [MatchesTable.Statement, tableRow, encode, packI, packC, Opcode.code] using h

theorem MatchesTable.tfkey (addr len : Addr) : MatchesTable.Statement (.tfkey addr len) := by
  have h := packC_and .tfkey addr 0x0 len 0x0
  simpa [MatchesTable.Statement, tableRow, encode, packI, packC, Opcode.code] using h

theorem MatchesTable.tftweak (addr len : Addr) : MatchesTable.Statement (.tftweak addr len) := by
  have h := packC_and .tftweak addr 0x0 len 0x0
  simpa [MatchesTable.Statement, tableRow, encode, packI, packC, Opcode.code] using h

theorem MatchesTable.tfenc (addr : Addr) : MatchesTable.Statement (.tfenc addr) := by
  have h := packC_and .tfenc addr 0x0 0 0xFFFFFF
  simpa [MatchesTable.Statement, tableRow, encode, packI, packC, Opcode.code] using h

end Sys2Proof.Laws
end

