-- ==== Sys2Proof/Laws/Step.lean ====
section
/-! SUPPORT. The machine's step on each kind of next turn, and the sequencer's step by what it fetches: one lemma per case, so
that no proof unfolds the step. -/

namespace Sys2Proof.Machine

/-- With no turn scheduled the sequencer moves. -/
theorem step_noTurn {s : State} (h : s.turns = []) : step s = engineStep s := by simp [step, turnStep, h]

/-- A scheduled turn of the sequencer is used up and the sequencer moves. -/
theorem step_engineTurn {s : State} {rest : List Turn} (h : s.turns = .engine :: rest) :
    step s = engineStep { s with turns := rest } := by simp [step, turnStep, h]

/-- A scheduled turn of the host is used up and the access is made. -/
theorem step_hostTurn {s : State} {a : HostAccess} {rest : List Turn} (h : s.turns = .host a :: rest) :
    step s = hostStep a { s with turns := rest } := by simp [step, turnStep, h]

/-- A scheduled hardware reset is used up and every register takes its reset value. -/
theorem step_resetTurn {s : State} {rest : List Turn} (h : s.turns = .hardwareReset :: rest) :
    step s = .next ({ s with turns := rest } : State).resetRegisters := by simp [step, turnStep, h]

/-- The idle sequencer changes nothing. -/
theorem engineStep_idle {s : State} (h : s.busy = false) : engineStep s = .next s := by simp [engineStep, h]

/-- A fetch past DMEM takes MEM_FAULT with ERRCMD = 0. -/
theorem engineStep_pastDmem {s : State} (hb : s.busy = true) (h : s.cfg.dmemSize < s.pc.toNat + 8) :
    engineStep s = .next (s.takeError .memFault 0) := by simp [engineStep, hb, State.fetchBytes, h]

/-- A word that does not decode takes ILLEGAL_COMMAND with that word. -/
theorem engineStep_illegal {s : State} {e : DecodeError} (hb : s.busy = true) (h : s.pc.toNat + 8 ≤ s.cfg.dmemSize)
    (hd : decodeBytes (s.memRead s.pc.toNat 8) = .error e) :
    engineStep s = .next (s.takeError .illegalCommand (leWord (s.memRead s.pc.toNat 8))) := by
  simp [engineStep, hb, State.fetchBytes, Nat.not_lt.mpr h, hd]

/-- A word that decodes runs. -/
theorem engineStep_runs {s : State} {i : Instr} (hb : s.busy = true) (h : s.pc.toNat + 8 ≤ s.cfg.dmemSize)
    (hd : decodeBytes (s.memRead s.pc.toNat 8) = .ok i) : engineStep s = exec i s := by
  simp [engineStep, hb, State.fetchBytes, Nat.not_lt.mpr h, hd]

end Sys2Proof.Machine
end

