-- ==== Sys2Proof/Tests/Slice0.lean ====
section
/-! SUPPORT. Tests: the well-formedness smoke test, one word per command written out from 30_encoding.md R81 to R85, one or two
single steps per command with expected values from 95_test_vectors.md (the vector's name stands beside each), and for
every statement with hypotheses a witness that meets them. -/

namespace Sys2Proof.Tests

open Sys2Proof Sys2Proof.Machine Sys2Proof.Claims

/-! ### Small states -/

/-- A created engine: CREATE 256, 256, but with STATE and CFGVAL zero. -/
def ready : State :=
  { State.reset with
    nw := 4, outbits := 256, phase := .accum, t1 := messageT1, cfgstr := #v[0x0000000133414853, 256, 0, 0] }

/-- Four words and twelve zeros, a register file of Nw = 4. -/
def four (a b c d : Word) : Vector Word 16 := #v[a, b, c, d, 0, 0, 0, 0, 0, 0, 0, 0, 0, 0, 0, 0]

/-- The initial chaining value E-7. -/
def iv : Vector Word 16 := four 0xFC9DA860D048B449 0x2FCA66479FA7D833 0xB33BC3896656840F 0x6A54E920FDE8DA69

/-- The engine right after CREATE 256, 256. -/
def fresh : State := { ready with chain := iv, cfgval := iv }

/-- `fresh` with the byte FF buffered (V-UBI-1). -/
def oneByte : State := { fresh with ibuf := fresh.ibuf.set 0 0xFF, fill := 1 }

/-- A state with bytes at an address. -/
def holding (s : State) (a : Nat) (bs : List Byte) : State := { s with dmem := s.dmem.writeBytes a bs }

/-- `n` bytes counting up or down from a first one. -/
def upFrom (b n : Nat) : List Byte := (List.range n).map fun i => BitVec.ofNat 8 (b + i)
def downFrom (b n : Nat) : List Byte := (List.range n).map fun i => BitVec.ofNat 8 (b - i)

/-- A state about to run the word `w` at its PC. -/
def running (s : State) (w : Word) : State := { holding s s.pc.toNat (wordBytes 8 w) with busy := true }

/-- The same state with the sequencer's turn scheduled, and a host read after it. -/
def scheduled (s : State) : State := { s with turns := [.engine, .host (.read 8 8)] }

/-- A state whose next turn is a host access. -/
def hosted (s : State) (a : HostAccess) : State := { s with turns := [.host a] }

/-- What a field of the next state is. -/
def after {α : Type} (o : Host.Outcome State Fault Refusal) (f : State → α) : Option α :=
  match o with
  | .next t => some (f t)
  | _ => none

/-! ### Well-formedness: each check refuses an ill-formed term (30_encoding.md R85) -/

theorem test_gencfg_two_is_ill_formed : (Instr.gencfg 2).wellFormed = false := by decide
theorem test_init_four_is_ill_formed : (Instr.init 4).wellFormed = false := by decide
theorem test_twflag_selector_three_is_ill_formed : (Instr.twflag 3 0).wellFormed = false := by decide
theorem test_twflag_value_two_is_ill_formed : (Instr.twflag 0 2).wellFormed = false := by decide

/-! ### Decoding: words written out from 30_encoding.md R81 to R83 -/

theorem test_decode_sequencer :
    decode 0x0000000000000000 = .ok .halt ∧ decode 0x0000000000000001 = .ok .nop := by decide

theorem test_decode_config_unit :
    decode 0x0000010000000410 = .ok (.create 4 256) ∧ decode 0x0000040008000011 = .ok (.setschema 0x800 4) ∧
    decode 0x0000000200000012 = .ok (.setver 2) ∧ decode 0x0000000000000713 = .ok (.setleaf 7) ∧
    decode 0x0000000000000214 = .ok (.setfan 2) ∧ decode 0x0000000000000315 = .ok (.setheight 3) ∧
    decode 0x0000000000000116 = .ok (.gencfg 1) := by decide

theorem test_decode_mac : decode 0x0000200008000018 = .ok (.mackey 0x800 32) := by decide

theorem test_decode_ubi :
    decode 0x0000000000000320 = .ok (.init 3) ∧ decode 0x0000200009000021 = .ok (.ldstate 0x900 32) ∧
    decode 0x0000200010400022 = .ok (.ststate 0x1040 32) ∧ decode 0x0000010008000028 = .ok (.update 0x800 1) ∧
    decode 0x0000030008000029 = .ok (.updbits 0x800 3) ∧ decode 0x000000000000002A = .ok .ubifin := by decide

theorem test_decode_output : decode 0x000000001000002B = .ok (.dofinal 0x1000) := by decide

theorem test_decode_tweak :
    decode 0x0000000000000830 = .ok (.twstart 8) ∧ decode 0x0000000100000131 = .ok (.twflag 1 1) ∧
    decode 0x0000000000003F32 = .ok (.twlevel 63) ∧ decode 0xFFFFFFFF00000033 = .ok (.twadd 0xFFFFFFFF) ∧
    decode 0x0000100011000034 = .ok (.sttweak 0x1100 16) := by decide

theorem test_decode_raw_cipher :
    decode 0x0000200008000038 = .ok (.tfkey 0x800 32) ∧ decode 0x0000100008200039 = .ok (.tftweak 0x820 16) ∧
    decode 0x000000000840003A = .ok (.tfenc 0x840) := by decide

/-- Illegal words are refused by name: V-SEQ-6, V-SEQ-7, V-ERR-9, V-SEQ-5, V-CFG-15, V-UBI-6e, V-TW-11, V-TW-12, V-TF-12. -/
theorem test_decode_refuses :
    decode 0x0000000000000002 = .error .reservedOpcode ∧ decode 0x0000000000010001 = .error .reservedField ∧
    decode 0x0000010008000128 = .error .reservedField ∧ decode 0x0000000000000100 = .error .illegalValue ∧
    decode 0x0000000000000216 = .error .illegalValue ∧ decode 0x0000000000000420 = .error .illegalValue ∧
    decode 0x0000000100000331 = .error .illegalValue ∧ decode 0x0000000200000031 = .error .illegalValue ∧
    decode 0x000001000800003A = .error .illegalValue ∧ decodeBytes [0, 0, 0] = .error .truncated := by decide

theorem test_table_word : decodeTableWord 64 0xFFFFFFFF00000033 = some (.twadd 0xFFFFFFFF) := by decide

theorem test_fetch_word_runs : after (step (State.reset.withFetchWord 64 0x1)) (fun t => (t.pc, t.err)) = some (8, false) := by
  decide

/-! ### One step per command -/

/-- V-SEQ-1, V-SEQ-2. -/
theorem test_halt : after (exec .halt { ready with busy := true }) (fun t => (t.busy, t.done, t.pc)) = some (false, true, 8) := by
  decide
theorem test_nop : after (exec .nop { ready with pc := 0xFFFFF8 }) (fun t => (t.pc, t.done)) = some (0, false) := by decide

/-- V-CFG-17, V-CFG-18. -/
theorem test_create_largest : after (exec (.create 4 0x7FFFFFFF) State.reset) (fun t => (t.nw, t.cfgstr.toList)) =
    some (4, [0x0000000133414853, 0x000000007FFFFFFF, 0, 0]) := by decide +kernel
theorem test_create_negative : after (exec (.create 4 0x80000000) State.reset) (fun t => (t.errcode, t.errcmd, t.nw)) =
    some (1, 0x8000000000000410, 0) := by decide

/-- V-CFG-7, V-CFG-8. -/
theorem test_setschema : after (exec (.setschema 0x800 4) (holding fresh 0x800 (upFrom 0x41 4))) (fun t => t.cfgstr[0]) =
    some 0x0000000144434241 := by decide
theorem test_setschema_length : after (exec (.setschema 0x800 3) fresh) (fun t => (t.errcode, t.errcmd)) =
    some (1, 0x0000030008000011) := by decide

/-- V-CFG-10, V-CFG-9. -/
theorem test_setver : after (exec (.setver 3) fresh) (fun t => t.cfgstr[0]) = some 0x0000000333414853 := by decide
theorem test_setver_four : after (exec (.setver 4) fresh) (fun t => (t.errcode, t.errcmd)) =
    some (1, 0x0000000400000012) := by decide

/-- V-CFG-11 and V-CFG-12. -/
theorem test_setleaf : after (exec (.setleaf 7) fresh) (fun t => t.cfgstr[2]) = some 0x07 := by decide
theorem test_setfan : after (exec (.setfan 2) { fresh with cfgstr := #v[0, 0, 7, 0] }) (fun t => t.cfgstr[2]) =
    some 0x0207 := by decide
theorem test_setheight : after (exec (.setheight 3) { fresh with cfgstr := #v[0, 0, 0x207, 0] }) (fun t => t.cfgstr[2]) =
    some 0x030207 := by decide
theorem test_setheight_one : after (exec (.setheight 1) fresh) (fun t => (t.errcode, t.errcmd)) = some (1, 0x115) := by
  decide

/-- V-CFG-5, V-ERR-7. -/
theorem test_gencfg_chained : after (exec (.gencfg 1) fresh) (fun t => (t.cfgval, t.chain)) =
    some (four 0x51A9B27EA200A632 0x24F27C52D0696468 0xA7460E904D3FDE4A 0x090CBAE557D3ADB3, iv) := by decide +kernel
theorem test_gencfg_tree : after (exec (.gencfg 0) { fresh with cfgstr := #v[0, 0, 0x20000, 0] })
    (fun t => (t.errcode, t.errcmd, t.cfgval)) = some (3, 0x16, iv) := by decide

/-- V-MAC-1, V-MAC-9. -/
theorem test_mackey : after (exec (.mackey 0x800 32) (holding fresh 0x800 (upFrom 0 32))) (fun t => t.cfgval) =
    some (four 0x32FE578224C55E59 0x72D5A2C2F1357151 0x2A475861169878D7 0x6A93ED09ED427E4D) := by decide +kernel
theorem test_mackey_tree_first : after (exec (.mackey 0xFFF8 17) { fresh with cfgstr := #v[0, 0, 5, 0] })
    (fun t => (t.errcode, t.errcmd)) = some (3, 0x00001100FFF80018) := by decide

/-- V-UBI-6d, V-CFG-14. -/
theorem test_init_chainedcfg : after (exec (.init 3) fresh) (fun t => t.chain) =
    some (four 0x51A9B27EA200A632 0x24F27C52D0696468 0xA7460E904D3FDE4A 0x090CBAE557D3ADB3) := by decide +kernel
theorem test_init_tree : after (exec (.init 3) { fresh with cfgstr := #v[0, 0, 5, 0] }) (fun t => (t.errcode, t.errcmd)) =
    some (3, 0x320) := by decide

/-- V-UBI-7b, V-UBI-7c. -/
theorem test_ldstate : after (exec (.ldstate 0x900 32) (holding fresh 0x900 (upFrom 0x40 32))) (fun t => t.chain) =
    some (four 0x4746454443424140 0x4F4E4D4C4B4A4948 0x5756555453525150 0x5F5E5D5C5B5A5958) := by decide +kernel
theorem test_ldstate_length : after (exec (.ldstate 0x900 64) fresh) (fun t => (t.errcode, t.errcmd)) =
    some (1, 0x0000400009000021) := by decide

/-- V-UBI-7a. -/
theorem test_ststate : after (exec (.ststate 0x900 32) fresh) (fun t => t.dmem.readBytes 0x900 9) =
    some [0x49, 0xB4, 0x48, 0xD0, 0x60, 0xA8, 0x9D, 0xFC, 0x33] := by decide +kernel

/-- V-UBI-4, V-UBI-13. -/
theorem test_update_lazy : after (exec (.update 0x800 33) (holding fresh 0x800 (downFrom 0xFF 33)))
    (fun t => (t.chain, t.t0, t.t1, t.fill, t.ibuf[0])) =
    some (four 0x7F9A85AC3AEABC4B 0xDC41A914F66BF7B4 0x7362209A487D0115 0x621637511D27FD7B, 0x20, 0x3000000000000000, 1,
      0xDF) := by decide +kernel
theorem test_update_range : after (exec (.update 0xFFFF 2) fresh) (fun t => (t.errcode, t.errcmd, t.fill)) =
    some (5, 0x00000200FFFF0028, 0) := by decide

/-- V-UBI-5d, V-TW-13. -/
theorem test_updbits : after (exec (.updbits 0x800 3) (holding fresh 0x800 [0xA5])) (fun t => (t.ibuf[0], t.t1, t.fill)) =
    some (0xB0, 0x7080000000000000, 1) := by decide +kernel
theorem test_updbits_twice : after (exec (.updbits 0x800 3) { fresh with t1 := 0x7080000000000000 })
    (fun t => (t.errcode, t.errcmd)) = some (2, 0x0000030008000029) := by decide

/-- V-UBI-2. -/
theorem test_ubifin : after (exec .ubifin oneByte) (fun t => (t.chain, t.t0, t.t1, t.fill)) =
    some (four 0x27AE39ED915A031E 0x3FAE49065D311DD2 0x76E6C80C244D966D 0x207E43946219FB5C, 1, 0xF000000000000000, 0) := by
  decide +kernel

/-- V-OUT-2.256, V-OUT-5 (the second chunk begins with 50). -/
theorem test_dofinal : after (exec (.dofinal 0x1000) oneByte) (fun t => (t.dmem.readBytes 0x1000 4, t.chain, t.t1)) =
    some ([0x0B, 0x98, 0xDC, 0xD1], iv, messageT1) := by decide +kernel
theorem test_dofinal_range : after (exec (.dofinal 0xFFE1) oneByte) (fun t => (t.errcode, t.fill)) = some (5, 1) := by
  decide

/-- V-TW-out, V-TW-1. -/
theorem test_twstart : after (exec (.twstart 63) fresh) (fun t => (t.t0, t.t1)) = some (0, 0x7F00000000000000) := by decide
theorem test_twstart_five : after (exec (.twstart 5) fresh) (fun t => (t.errcode, t.errcmd)) = some (1, 0x530) := by decide

/-- V-TW-10, its three flags one by one. -/
theorem test_twflag :
    after (exec (.twflag 1 1) fresh) (fun t => t.t1) = some 0xF000000000000000 ∧
    after (exec (.twflag 0 0) { fresh with t1 := 0xF000000000000000 }) (fun t => t.t1) = some 0xB000000000000000 ∧
    after (exec (.twflag 2 1) { fresh with t1 := 0xB000000000000000 }) (fun t => t.t1) = some 0xB080000000000000 := by
  decide

/-- V-TW-8, V-TW-9. -/
theorem test_twlevel : after (exec (.twlevel 63) fresh) (fun t => t.t1) = some 0x703F000000000000 := by decide
theorem test_twlevel_64 : after (exec (.twlevel 64) fresh) (fun t => (t.errcode, t.errcmd)) = some (1, 0x4032) := by decide

/-- V-TW-4, V-TW-5. -/
theorem test_twadd_wraps : after (exec (.twadd 1) { fresh with t0 := 0xFFFFFFFFFFFFFFFF, t1 := 0x70000000FFFFFFFF })
    (fun t => (t.t0, t.t1)) = some (0, 0x7000000000000000) := by decide
theorem test_twadd_carries :
    after (exec (.twadd 0xFFFFFFFF) { fresh with t0 := 0xFFFFFFFFFFFFFFFF, t1 := 0x70001234FFFFFFFF })
      (fun t => (t.t0, t.t1)) = some (0x00000000FFFFFFFE, 0x7000123400000000) := by decide

/-- V-TW-msg, V-TW-14. -/
theorem test_sttweak : after (exec (.sttweak 0x800 16) (holding fresh 0x800 (upFrom 1 17))) (fun t => t.dmem.readBytes 0x800 17) =
    some [0, 0, 0, 0, 0, 0, 0, 0, 0, 0, 0, 0, 0, 0, 0, 0x70, 17] := by decide +kernel
theorem test_sttweak_length : after (exec (.sttweak 0x800 8) fresh) (fun t => (t.errcode, t.errcmd)) =
    some (1, 0x0000080008000034) := by decide

/-- V-TF-4's key and tweak; V-TF-10. -/
theorem test_tfkey : after (exec (.tfkey 0x800 32) (holding fresh 0x800 (upFrom 0x10 32))) (fun t => t.tfk) =
    some (four 0x1716151413121110 0x1F1E1D1C1B1A1918 0x2726252423222120 0x2F2E2D2C2B2A2928) := by decide +kernel
theorem test_tfkey_length : after (exec (.tfkey 0x800 16) fresh) (fun t => (t.errcode, t.errcmd)) =
    some (1, 0x0000100008000038) := by decide
theorem test_tftweak : after (exec (.tftweak 0x900 16) (holding fresh 0x900 (upFrom 0 16))) (fun t => t.tft) =
    some #v[0x0706050403020100, 0x0F0E0D0C0B0A0908] := by decide +kernel

/-- V-TF-1, V-TF-11. -/
theorem test_tfenc : after (exec (.tfenc 0x800) (holding fresh 0x800 (List.replicate 32 0))) (fun t => t.dmem.readBytes 0x800 8) =
    some [0x84, 0xDA, 0x2A, 0x1F, 0x8B, 0xEA, 0xEE, 0x94] := by decide +kernel
theorem test_tfenc_range : after (exec (.tfenc 0xFFE1) (holding fresh 0xFFE1 (upFrom 1 2)))
    (fun t => (t.errcode, t.errcmd, t.dmem.readBytes 0xFFE1 2)) = some (5, 0x00000000FFE1003A, [1, 2]) := by decide +kernel

/-! ### The host port -/

/-- V-SEQ-3's GO; a write of IE_DONE and GO together (10_state.md R32). -/
theorem test_go : after (step (hosted ready (.write 0 8 3))) (fun t => (t.busy, t.ieDone)) = some (true, true) := by decide
theorem test_status_word : after (step (hosted { ready with done := true, ieDone := true } (.read 8 8)))
    (fun t => t.hostData) = some 0x000000000104000A := by decide

/-! ### Witnesses: the hypotheses of each statement, met together -/

/-- A file of zeros reads 0 everywhere. -/
theorem zeros {α : Type} (n : Nat) (x : α) (i : Nat) : (Vector.replicate n x).toList.getD i x = x := by
  rw [List.getD_eq_getElem?_getD, Vector.toList_replicate, List.getElem?_replicate]
  split <;> rfl

/-- `ready` meets the three invariants. -/
theorem ready_legal : LegalState ready where
  dmem := ⟨by decide, ⟨by decide, by decide⟩, by decide⟩
  sequencer := ⟨by decide, by decide, by decide, by decide, by decide⟩
  engine :=
    { phaseLegal := by decide
      uncreated := fun h => absurd h (by decide)
      created := fun _ => ⟨by decide, by decide, by decide, by decide, by decide, by decide, by decide, by decide, by decide⟩
      fillLegal := by decide
      chainTail := fun i _ => zeros 16 _ i
      cfgvalTail := fun i _ => zeros 16 _ i
      tfkTail := fun i _ => zeros 16 _ i
      ibufTail := fun i _ => zeros 128 _ i }

theorem witness_DecodeOfEncodeIsTheCommand :
    (Instr.gencfg 1).wellFormed = true ∧ (Instr.init 3).wellFormed = true ∧ (Instr.twflag 2 1).wellFormed = true ∧
    (Instr.update 0xFFFFFF 0xFFFFFF).wellFormed = true := by decide

theorem witness_EncodeOfDecodeIsTheWord : decode 0x0000000200000131 = .error .illegalValue ∧
    decode 0x0000000100000231 = .ok (.twflag 2 1) := by decide

/-- Both clauses, at the last address from which a fetch lies in DMEM. -/
theorem witness_HaltEndsTheRunAndNopOnlyAdvances :
    (∃ s : State, sequencersTurn s ∧ s.busy = true ∧ s.pc.toNat + 8 = s.cfg.dmemSize ∧
      (wordAtAddr s.dmem s.pc.toNat).toNat % 2 ^ 8 = 0 ∧ 1 < (wordAtAddr s.dmem s.pc.toNat).toNat) ∧
    (∃ s : State, sequencersTurn s ∧ s.busy = true ∧ s.pc.toNat + 8 = s.cfg.dmemSize ∧
      (wordAtAddr s.dmem s.pc.toNat).toNat % 2 ^ 8 = 1 ∧ 1 < (wordAtAddr s.dmem s.pc.toNat).toNat) :=
  ⟨⟨running { ready with pc := 0xFFF8 } 0x100, .inl rfl, by decide +kernel⟩,
    ⟨scheduled (running { ready with pc := 0xFFF8 } 0x101), .inr ⟨_, rfl⟩, by decide +kernel⟩⟩

theorem witness_EveryFetchedWordRunsOrIsIllegal :
    (∃ s : State, sequencersTurn s ∧ s.busy = true ∧ s.pc.toNat + 8 = s.cfg.dmemSize ∧
      legalWord (wordAtAddr s.dmem s.pc.toNat) = false) ∧
    (∃ s : State, sequencersTurn s ∧ s.busy = true ∧ s.pc.toNat + 8 = s.cfg.dmemSize ∧
      legalWord (wordAtAddr s.dmem s.pc.toNat) = true) :=
  ⟨⟨scheduled (running { ready with pc := 0xFFF8 } 0x55), .inr ⟨_, rfl⟩, by decide +kernel⟩,
    ⟨running { ready with pc := 0xFFF8 } 0x320, .inl rfl, by decide +kernel⟩⟩

theorem witness_StepRunsTheDecodedCommand :
    let s := running { ready with pc := 0xFFF8 } 0x2A
    s.busy = true ∧ s.pc.toNat + 8 ≤ s.cfg.dmemSize ∧ decodeBytes (s.dmem.readBytes s.pc.toNat 8) = .ok .ubifin ∧
      s.turns = [] ∧ ({ s with turns := [.engine] } : State).turns = .engine :: [] := by decide +kernel

theorem witness_FetchOutsideDmemTakesMemFault :
    let s : State := { ready with pc := 0x10000, busy := true }
    sequencersTurn s ∧ sequencersTurn (scheduled s) ∧ s.busy = true ∧ s.cfg.dmemSize < s.pc.toNat + 8 :=
  ⟨.inl rfl, .inr ⟨_, rfl⟩, by decide, by decide⟩

theorem witness_IdleSequencerChangesNothing :
    ready.busy = false ∧ ready.turns = [] ∧ ({ ready with turns := [.engine] } : State).turns = .engine :: [] := by decide

/-- A step that goes on and one that stops, with BUSY falling by HALT and by an error: the premises of NoCommandBranches,
BusyFallsWithDoneOrErr and InterruptFollowsDoneAndErr. -/
theorem witness_runs_that_end :
    sequencersTurn (running ready 0) ∧ sequencersTurn (scheduled (running ready 2)) ∧ (running ready 0).busy = true ∧
    after (step (running ready 0)) (fun t => (t.busy, t.done)) = some (false, true) ∧
    after (step (scheduled (running ready 2))) (fun t => (t.busy, t.err)) = some (false, true) ∧
    after (step (scheduled (running ready 1))) (fun t => (t.busy, t.pc)) = some (true, 8) :=
  ⟨.inl rfl, .inr ⟨_, rfl⟩, by decide +kernel⟩

theorem witness_InterruptFollowsDoneAndErr : SequencerInv (running ready 0) :=
  ⟨by decide, by decide, by decide, by decide, by decide⟩

theorem witness_ScheduledTurnsAreTakenInOrder :
    (hosted ready (.read 0 8)).turns = .host (.read 0 8) :: [] ∧
    ({ ready with turns := [.hardwareReset] } : State).turns = .hardwareReset :: [] := by decide

theorem witness_ErrorsAreTheTablesAndChangeOnlyTheRecord :
    (Instr.updbits 0xFFFF 24).wellFormed = true ∧ expectedError (.updbits 0xFFFF 8) ready = none ∧
    expectedError (.updbits 0xFFFF 9) ready = some 5 ∧ expectedError .ubifin State.reset = some 6 := by decide

theorem witness_TwstartStartsTheBlockType :
    ready.phase ≠ .uninit ∧ (63 : BitVec 8).toNat ∈ [0, 4, 8, 12, 16, 20, 48, 63] ∧
    (0 : BitVec 8).toNat ∈ [0, 4, 8, 12, 16, 20, 48, 63] := by decide

theorem witness_TwflagWritesOneFlag :
    ready.phase ≠ .uninit ∧ (1 : BitVec 32).toNat ≤ 1 ∧ (0 : BitVec 32).toNat ≤ 1 := by decide

theorem witness_TwlevelWritesTheTreeLevel : ready.phase ≠ .uninit ∧ (63 : BitVec 8).toNat ≤ 63 := by decide

theorem witness_TwaddAddsModulo96Bits : ready.phase ≠ .uninit := by decide

theorem witness_SttweakStoresTheTweak :
    ready.phase ≠ .uninit ∧ (16 : Addr).toNat = 16 ∧ (0xFFF0 : Addr).toNat + 16 ≤ ready.cfg.dmemSize ∧ ready.dmem.wf := by
  decide

theorem witness_TfkeyAndTftweakLoadTheRawRegisters :
    ready.phase ≠ .uninit ∧ ready.nw ∈ stateSizes ∧ (32 : Addr).toNat = 8 * ready.nw.toNat ∧
    (0xFFE0 : Addr).toNat + 8 * ready.nw.toNat ≤ ready.cfg.dmemSize ∧ (16 : Addr).toNat = 16 ∧
    (0xFFF0 : Addr).toNat + 16 ≤ ready.cfg.dmemSize := by decide

theorem witness_TfencEncryptsTheBlockInPlace :
    ready.phase ≠ .uninit ∧ ready.nw ∈ stateSizes ∧ (0xFFE0 : Addr).toNat + 8 * ready.nw.toNat ≤ ready.cfg.dmemSize ∧
    ready.dmem.wf := by decide

theorem witness_UbiCommandsIgnoreTheRawRegisters :
    usesRawCipher (.twadd 1) = false ∧ ∃ t, exec (.twadd 1) ready = .next t := ⟨rfl, exec_next _ _⟩

theorem witness_CreateBuildsAFreshEngine :
    (16 : BitVec 8) ∈ stateSizes ∧ 1 ≤ (1 : BitVec 32).toNat ∧ (0x7FFFFFFF : BitVec 32).toNat < 2 ^ 31 := by decide

/-- Each clause at its last admitted operand. -/
theorem witness_ConfigSettersWriteOneFieldOfCfgstr :
    ready.phase ≠ .uninit ∧ (4 : Addr).toNat = 4 ∧ (0xFFFC : Addr).toNat + 4 ≤ ready.cfg.dmemSize ∧
    (3 : BitVec 32).toNat ≤ 3 ∧ (0 : BitVec 8) ≠ 1 ∧ (2 : BitVec 8) ≠ 1 := by decide

/-- GENCFG, and INIT with its fourth mode. -/
theorem witness_GencfgWritesOnlyCfgval_and_InitRestartsInFourModes :
    ready.phase ≠ .uninit ∧ ready.nw ∈ stateSizes ∧ ready.cfgstr[2] = 0 := by decide

/-- LDSTATE and STSTATE of the last block of DMEM. -/
theorem witness_LdstateLoads_and_StstateStores :
    ready.phase ≠ .uninit ∧ ready.nw ∈ stateSizes ∧ (32 : Addr).toNat = 8 * ready.nw.toNat ∧
    (0xFFE0 : Addr).toNat + 8 * ready.nw.toNat ≤ ready.cfg.dmemSize ∧ ready.dmem.wf := by decide

theorem witness_CheckpointRestoresTheChainingValue :
    ∃ t u : State, exec (.ststate 0x900 32) fresh = .next t ∧ u.phase ≠ .uninit ∧ u.nw = fresh.nw ∧ u.cfg = fresh.cfg ∧
      u.dmem = t.dmem := by
  obtain ⟨t, h⟩ := exec_next (.ststate 0x900 32) fresh
  exact ⟨t, { fresh with dmem := t.dmem }, h, by show fresh.phase ≠ _; decide, rfl, rfl, rfl⟩

/-- A block that UPDATE fills to the last byte, and one it leaves partly empty. -/
theorem witness_UpdateBuffersWhatFits :
    oneByte.phase ≠ .uninit ∧ oneByte.nw ∈ stateSizes ∧ oneByte.fill.toNat + (31 : Addr).toNat ≤ 8 * oneByte.nw.toNat ∧
    (0xFFE1 : Addr).toNat + (31 : Addr).toNat ≤ oneByte.cfg.dmemSize := by decide

theorem witness_UpdateTransformsAFullBlockLazily :
    let s : State := { fresh with fill := 32 }
    s.phase ≠ .uninit ∧ s.nw ∈ stateSizes ∧ s.fill.toNat = 8 * s.nw.toNat ∧ (0xFFFF : Addr).toNat + 1 ≤ s.cfg.dmemSize := by
  decide

/-- Three pieces, one of them empty, that end at the end of DMEM. -/
theorem witness_UpdateOfPiecesIsUpdateOfTheWhole :
    fresh.phase ≠ .uninit ∧ fresh.cfg.Valid ∧ [31, 0, 69].sum < 2 ^ 24 ∧
    (0xFF9C : Addr).toNat + [31, 0, 69].sum = fresh.cfg.dmemSize := by decide

theorem witness_UpdbitsOfWholeBytesIsUpdate :
    fresh.phase ≠ .uninit ∧ fresh.t1.getLsbD 55 = false ∧ (16 : Addr).toNat = 8 * (2 : Addr).toNat ∧
    (0xFFFE : Addr).toNat + (2 : Addr).toNat ≤ fresh.cfg.dmemSize := by decide

theorem witness_UpdbitsPadsTheLastByte :
    ready.phase = .accum ∧ EngineInv ready ∧ ready.t1.getLsbD 55 = false ∧ (15 : Addr).toNat % 8 ≠ 0 ∧
    (2 : Addr).toNat = (15 : Addr).toNat / 8 + 1 ∧ (0xFFFE : Addr).toNat + (2 : Addr).toNat ≤ ready.cfg.dmemSize :=
  ⟨by decide, ready_legal.engine, by decide, by decide, by decide, by decide⟩

/-- An empty and a full buffer. -/
theorem witness_UbifinTransformsThePaddedBlock :
    ready.phase ≠ .uninit ∧ ready.nw ∈ stateSizes ∧ ready.fill.toNat ≤ 8 * ready.nw.toNat ∧
    ({ ready with fill := 32 } : State).fill.toNat ≤ 8 * ready.nw.toNat := by decide

theorem witness_DofinalStoresTheDigestAndRestarts :
    ready.phase ≠ .uninit ∧ ready.nw ∈ stateSizes ∧ ready.dmem.wf ∧
    (0xFFE0 : Addr).toNat + (ready.outbits.toNat + 7) / 8 ≤ ready.cfg.dmemSize := by decide

/-- An empty key and a key that ends at the end of DMEM. -/
theorem witness_MackeyIsTheKeyUbiCallThenChainedConfig :
    ready.phase ≠ .uninit ∧ ready.cfgstr[2] = 0 ∧ (0xFFFF : Addr).toNat + (1 : Addr).toNat ≤ ready.cfg.dmemSize ∧
    (0xFFFF : Addr).toNat + (0 : Addr).toNat ≤ ready.cfg.dmemSize := by decide

/-- A power-up state with the reference DMEM_SIZE whose DMEM is not empty. -/
theorem witness_CreateAndDofinalGiveThePublishedValues :
    let s : State := holding State.reset 0x1000 (upFrom 1 64)
    PowerUp s ∧ s.cfg = Config.reference ∧ s.dmem.read 0x1002 = 3 :=
  ⟨⟨⟨by decide, ⟨by decide +kernel, by decide +kernel⟩, by decide +kernel⟩, rfl⟩, rfl, by decide +kernel⟩

theorem witness_EmptyMacKeyGivesThePlainHash :
    expectedError (.create 4 256) State.reset = none ∧ (0x10000 : Addr).toNat ≤ State.reset.cfg.dmemSize ∧
    ∃ t, exec (.create 4 256) State.reset = .next t := ⟨by decide, by decide, exec_next _ _⟩

/-- Two states with the same key bytes and, elsewhere, another DMEM and another message under way. -/
theorem witness_MackeyForgetsTheEarlierState :
    let s : State := holding ready 0x800 (upFrom 0 32)
    let s' : State := holding { s with t1 := 0x3000000000000000 } 0x820 [7]
    s.phase = .accum ∧ s'.phase = .accum ∧ EngineInv s ∧ EngineInv s' ∧ s'.nw = s.nw ∧ s'.cfgstr = s.cfgstr ∧
    s.cfgstr[2] = 0 ∧ (∀ j, j < (32 : Addr).toNat → s'.dmem.read ((0x800 : Addr).toNat + j) = s.dmem.read ((0x800 : Addr).toNat + j)) ∧
    s'.dmem ≠ s.dmem ∧ (0x800 : Addr).toNat + (32 : Addr).toNat ≤ s.cfg.dmemSize ∧
    (0x800 : Addr).toNat + (32 : Addr).toNat ≤ s'.cfg.dmemSize := by
  have h := ready_legal.engine
  have c := h.created rfl
  refine ⟨rfl, rfl, ⟨h.phaseLegal, fun e => absurd e (by decide), fun _ => ?_, h.fillLegal, h.chainTail, h.cfgvalTail, h.tfkTail, h.ibufTail⟩,
    ⟨h.phaseLegal, fun e => absurd e (by decide), fun _ => ?_, h.fillLegal, h.chainTail, h.cfgvalTail, h.tfkTail, h.ibufTail⟩,
    rfl, rfl, rfl, by decide +kernel, by decide +kernel, by decide, by decide⟩
  · exact ⟨c.sizeLegal, c.outbitsLegal, c.typeLegal, c.levelLegal, c.tweakReserved, c.versionLegal, c.configReserved, c.outlen,
      c.heightLegal⟩
  · exact ⟨c.sizeLegal, c.outbitsLegal, by decide, by decide, by decide, c.versionLegal, c.configReserved, c.outlen,
      c.heightLegal⟩

theorem witness_OnlyTheirCommandsWriteTheRegisters :
    (∃ t, exec .ubifin ready = .next t) ∧ mayStore .ubifin = false ∧ mayConfigure .ubifin = false ∧
    mayDeriveConfig .ubifin = false ∧ leavesHash (.setver 3) = true ∧ ready.phase ≠ .finalized :=
  ⟨exec_next _ _, by decide, by decide, by decide, by decide, by decide⟩

/-- Two legal states that differ in a stale byte. -/
theorem witness_StaleBufferBytesAreNeverRead :
    let s : State := { ready with ibuf := ready.ibuf.set 31 0xAA }
    EngineInv ready ∧ s ≠ ready ∧ sameButStaleBytes ready s := by
  refine ⟨ready_legal.engine, by decide +kernel, rfl, fun i hi => absurd hi (by decide +revert)⟩

/-- The premises of the three statements about what a step keeps. -/
theorem witness_steps_from_a_legal_state :
    LegalState ready ∧ ∃ t, step (hosted ready (.write 0 8 1)) = .next t := ⟨ready_legal, _, rfl⟩

theorem witness_EveryReachableStateIsLegal : Reachable State.reset :=
  .powerUp ⟨⟨by decide, ⟨by decide, by decide⟩, by decide⟩, rfl⟩

/-- GO while idle, GO while busy and no GO; SRST with every other bit set. -/
theorem witness_GoStartsARun_and_SoftReset :
    writes (hosted ready (.write 0 8 7)) 0 8 7 [] ∧ (7 : Word).getLsbD 3 = false ∧ (7 : Word).getLsbD 0 = true ∧
    (6 : Word).getLsbD 0 = false ∧ ready.busy = false ∧ (running ready 1).busy = true ∧
    writes (hosted ready (.write 0 8 15)) 0 8 15 [] ∧ (15 : Word).getLsbD 3 = true := by
  refine ⟨rfl, by decide, by decide, by decide, by decide, by decide, rfl, by decide⟩

theorem witness_StatusWrite_and_PcWrite :
    writes (hosted ready (.write 8 8 6)) 8 8 6 [] ∧ writes (hosted ready (.write 0x10 8 0xFFFFFFF)) 0x10 8 0xFFFFFFF [] ∧
    ready.busy = false ∧ (running ready 1).busy = true := ⟨rfl, rfl, by decide, by decide⟩

theorem witness_CtrlAndStatusReadExactly :
    reads (hosted ready (.read 0 8)) 0 8 [] ∧ reads (hosted ready (.read 8 8)) 8 8 [] := ⟨rfl, rfl⟩

/-- The last offset of each block, and the last of the CSR block. -/
theorem witness_IdleCsrReadsFollowTheMap :
    ready.busy = false ∧ reads (hosted ready (.read 0xF8 8)) 0xF8 8 [] ∧
    (0xF8 : BitVec 25).toNat = 0x080 + 8 * 15 ∧ (0x118 : BitVec 25).toNat = 0x100 + 8 * 3 ∧
    (0x1F8 : BitVec 25).toNat = 0x180 + 8 * 15 ∧ (0x278 : BitVec 25).toNat = 0x200 + 8 * 15 ∧
    (0xFF8 : BitVec 25).toNat % 8 = 0 ∧ 0x280 ≤ (0xFF8 : BitVec 25).toNat ∧ (0xFF8 : BitVec 25).toNat < 0x1000 :=
  ⟨by decide, rfl, by decide, by decide, by decide, by decide, by decide, by decide, by decide⟩

/-- The last eight bytes and the last byte of DMEM. -/
theorem witness_IdleDmemWindowIsLittleEndian :
    ready.busy = false ∧ DmemInv ready ∧ (0x100FFF8 : BitVec 25).toNat = 2 ^ 24 + 0xFFF8 ∧ 0xFFF8 < ready.cfg.dmemSize ∧
    8 ∈ [1, 2, 4, 8] ∧ 0xFFF8 % 8 = 0 ∧ (0x100FFFF : BitVec 25).toNat = 2 ^ 24 + 0xFFFF ∧ 0xFFFF < ready.cfg.dmemSize ∧
    reads (hosted ready (.read 0x100FFF8 8)) 0x100FFF8 8 [] ∧ writes (hosted ready (.write 0x100FFFF 1 5)) 0x100FFFF 1 5 [] :=
  ⟨by decide, ready_legal.dmem, by decide, by decide, by decide, by decide, by decide, by decide, rfl, rfl⟩

/-- The first unmapped offsets below and above the window; the first read-only CSR. -/
theorem witness_OtherOffsetsIgnoreWrites :
    (0x1000 : BitVec 25).toNat % 8 = 0 ∧ (0x1000 : BitVec 25).toNat < 2 ^ 24 ∧
    2 ^ 24 + ready.cfg.dmemSize ≤ (0x1010000 : BitVec 25).toNat ∧ (0x18 : BitVec 25).toNat % 8 = 0 ∧
    writes (hosted ready (.write 0x18 8 5)) 0x18 8 5 [] ∧ reads (hosted ready (.read 0x1000 4)) 0x1000 4 [] :=
  ⟨by decide, by decide, by decide, by decide, rfl, rfl⟩

/-- The last CSR, the last DMEM offsets, and the unmapped offsets on both sides of the window. -/
theorem witness_OutOfSpecHostAccessIsRefused :
    (0xFF8 : BitVec 25).toNat < 0x1000 ∧ (4 ≠ 8 ∨ (0xFF8 : BitVec 25).toNat % 8 ≠ 0) ∧
    2 ^ 24 ≤ (0x100FFFF : BitVec 25).toNat ∧ (0x100FFFF : BitVec 25).toNat < 2 ^ 24 + ready.cfg.dmemSize ∧
    (2 ∉ [1, 2, 4, 8] ∨ (0x100FFFF : BitVec 25).toNat % 2 ≠ 0) ∧
    (0x1001 : BitVec 25).toNat < 2 ^ 24 ∧ 2 ^ 24 + ready.cfg.dmemSize ≤ (0x1010001 : BitVec 25).toNat ∧
    (2 ∉ [1, 2, 4, 8] ∨ (0x1010001 : BitVec 25).toNat % 2 ≠ 0) ∧
    reads (hosted ready (.read 0xFF8 4)) 0xFF8 4 [] ∧ writes (hosted ready (.write 0x100FFFF 2 0)) 0x100FFFF 2 0 [] ∧
    reads (hosted ready (.read 0x1010001 2)) 0x1010001 2 [] :=
  ⟨by decide, by decide, by decide, by decide, by decide, by decide, by decide, by decide, rfl, rfl, rfl⟩

/-- A read while busy, the premise of both statements about reads. -/
theorem witness_HostReads :
    let s := hosted (running ready 1) (.read 0x40 8)
    reads s 0x40 8 [] ∧ ∃ t, step s = .next t := ⟨rfl, _, rfl⟩

theorem witness_BusyDmemWriteTouchesOnlyItsBytes :
    (hosted { ready with busy := true } (.write 0x1000000 1 5)).busy = true ∧ DmemInv ready ∧
    (0x1000000 : BitVec 25).toNat = 2 ^ 24 + 0 ∧ 0 < ready.cfg.dmemSize ∧ 1 ∈ [1, 2, 4, 8] ∧ 0 % 1 = 0 ∧
    writes (hosted { ready with busy := true } (.write 0x1000000 1 5)) 0x1000000 1 5 [] :=
  ⟨by decide, ready_legal.dmem, by decide, by decide, by decide, by decide, rfl⟩

end Sys2Proof.Tests
end

