-- ==== Sys2Proof/Proofs/Scope.lean ====
section
/-! PROOFS. The scheduled turns (00_scope.md R14; log 3). -/

namespace Sys2Proof.Proofs

open Sys2Proof.Machine

/-- The registers of a hardware reset when its turn has just been used up (70_reset_and_hazards.md R340; log 12): the kept
fields are the old state's, apart from the turns, which are those left. -/
theorem resetRegisters_of_turnUsed (s : State) (rest : List Turn) :
    ({ s with turns := rest } : State).resetRegisters =
      { State.reset with
        cfg := s.cfg, dmem := s.dmem, turns := rest, hostData := s.hostData, freeCtr := s.freeCtr } := rfl

/-- Settles O12: one step rule for each of the two kinds of turn, and for the reset the registers it leaves. -/
theorem scheduledTurnsAreTakenInOrder : Obligations.ScheduledTurnsAreTakenInOrder := by
  intro s rest
  refine ⟨fun a hHost => ?_, fun hReset => ?_⟩
  · exact step_hostTurn hHost
  · rw [step_resetTurn hReset, resetRegisters_of_turnUsed]

end Sys2Proof.Proofs
end

/-! PROOFS. The architectural state (10_state.md R20 to R39): who reads and writes each register, what every step keeps of them,
and how the host port shows them. -/

namespace Sys2Proof.Proofs

open Sys2Proof.Machine Sys2Proof.Claims

/-! ### What the commands' effects share -/

/-- GENCFG's effect is one derivation, under one of its two keys (42_config.md R196). -/
theorem effectOf_gencfg (a : BitVec 8) (s : State) :
    effectOf (.gencfg a) s = s.genConfig (if a = 0 then s.zeroKey else s.chainWords) :=
  (apply_ite s.genConfig (a = 0) s.zeroKey s.chainWords).symm

/-- A command that needs an engine and whose checks pass has one (10_state.md R27). -/
theorem phase_ne_uninit_of_checks {i : Instr} {s : State} (h : firstError (checksOf i s) = none)
    (hi : runsUncreated i = false) : s.phase ≠ .uninit := by
  intro hu
  have hmem : notCreated s ∈ checksOf i s := by
    cases i with
    | halt | nop | create => cases hi
    | _ => simp [checksOf]
  have := firstError_eq_none.1 h _ hmem
  simp [notCreated, hu] at this

/-! ### The bytes of IBUF from FILL on -/

/-- The state with other buffer contents. -/
def withIbuf (s : State) (b : Vector Byte 128) : State := { s with ibuf := b }

/-- Two buffers hold the same bytes below `n`. -/
def AgreeBelow (n : Nat) (b c : Vector Byte 128) : Prop := ∀ i, i < n → b.toList.getD i 0 = c.toList.getD i 0

theorem sameButStaleBytes_iff {s t : State} :
    sameButStaleBytes s t ↔ ∃ b, t = withIbuf s b ∧ AgreeBelow s.fill.toNat s.ibuf b := by
  constructor
  · rintro ⟨heq, hag⟩
    exact ⟨t.ibuf, heq, hag⟩
  · rintro ⟨b, rfl, hag⟩
    exact ⟨rfl, hag⟩

theorem sameButStaleBytes_refl (s : State) : sameButStaleBytes s s := ⟨rfl, fun _ _ => rfl⟩

/-- With an empty buffer every byte of IBUF is stale. -/
theorem sameButStaleBytes_of_fill_zero {s : State} (h : s.fill = 0) (b : Vector Byte 128) :
    sameButStaleBytes s (withIbuf s b) :=
  sameButStaleBytes_iff.2 ⟨b, rfl, fun i hi => absurd hi (by simp [h])⟩

/-- An operation that passes IBUF through, and keeps FILL or empties the buffer, keeps the relation. -/
theorem sameButStaleBytes_map {s s' : State} (f : State → State) (hf : ∀ u b, f (withIbuf u b) = withIbuf (f u) b)
    (hi : (f s).ibuf = s.ibuf) (hfill : (f s).fill = s.fill ∨ (f s).fill = 0) (h : sameButStaleBytes s s') :
    sameButStaleBytes (f s) (f s') := by
  obtain ⟨b, rfl, hag⟩ := sameButStaleBytes_iff.1 h
  rw [hf]
  rcases hfill with hsame | hzero
  · exact sameButStaleBytes_iff.2 ⟨b, rfl, by rwa [hsame, hi]⟩
  · exact sameButStaleBytes_of_fill_zero hzero b

theorem AgreeBelow.take_eq {n : Nat} {b c : Vector Byte 128} (h : AgreeBelow n b c) :
    b.toList.take n = c.toList.take n := by
  refine List.ext_getElem (by simp) fun i hb hc => ?_
  have hi := h i (by simp at hb; omega)
  simp only [List.length_take, Vector.length_toList] at hb
  simpa [show i < 128 by omega] using hi

/-- The words of a byte string are those of its bytes below the last word's end. -/
theorem leWords_take (n : Nat) (bs : List Byte) : leWords n (bs.take (8 * n)) = leWords n bs := by
  induction n generalizing bs with
  | zero => rfl
  | succ n ih =>
    simp only [leWords, List.take_take, List.drop_take, show min 8 (8 * (n + 1)) = 8 by omega,
      show 8 * (n + 1) - 8 = 8 * n by omega, ih]

/-- The block reads the buffer only below Nb (43_ubi.md R210). -/
theorem bufferWords_withIbuf {s : State} {b : Vector Byte 128} (h : AgreeBelow s.blockBytes s.ibuf b) :
    (withIbuf s b).bufferWords = s.bufferWords := by
  show leWords s.words b.toList = leWords s.words s.ibuf.toList
  rw [← leWords_take, ← leWords_take s.words s.ibuf.toList]
  exact congrArg _ h.take_eq.symm

theorem processBlock_withIbuf {s : State} {b : Vector Byte 128} (h : AgreeBelow s.blockBytes s.ibuf b) (n : Nat) :
    (withIbuf s b).processBlock n = withIbuf (s.processBlock n) b := by
  unfold State.processBlock
  rw [bufferWords_withIbuf h]
  rfl

theorem flushFull_keepsStale {s s' : State} (h : sameButStaleBytes s s') :
    sameButStaleBytes s.flushFull s'.flushFull := by
  obtain ⟨b, rfl, hag⟩ := sameButStaleBytes_iff.1 h
  by_cases hfull : s.fill.toNat = s.blockBytes
  · have hs : s.flushFull = { (s.processBlock s.blockBytes).setTweakBit 62 false with fill := 0 } := if_pos hfull
    have hb : (withIbuf s b).flushFull =
        { ((withIbuf s b).processBlock s.blockBytes).setTweakBit 62 false with fill := 0 } := if_pos hfull
    rw [hs, hb, processBlock_withIbuf (hfull ▸ hag)]
    exact sameButStaleBytes_of_fill_zero rfl b
  · have hs : s.flushFull = s := if_neg hfull
    have hb : (withIbuf s b).flushFull = withIbuf s b := if_neg hfull
    rwa [hs, hb]

/-- Writing one byte of both buffers at the same place keeps what they share below it, and makes them share it. -/
theorem AgreeBelow.setIfInBounds {n : Nat} {b c : Vector Byte 128} (h : AgreeBelow n b c) (x : Byte) :
    AgreeBelow (n + 1) (b.setIfInBounds n x) (c.setIfInBounds n x) := by
  intro i hi
  have hb := h i
  simp only [Vector.toList_setIfInBounds, List.getD_eq_getElem?_getD, List.getElem?_set, Vector.length_toList]
    at hb ⊢
  by_cases hn : n = i
  · simp [hn]
  · simp only [hn, if_false]
    exact hb (by omega)

theorem AgreeBelow.mono {m n : Nat} {b c : Vector Byte 128} (h : AgreeBelow n b c) (hm : m ≤ n) : AgreeBelow m b c :=
  fun i hi => h i (by omega)

theorem pushByte_keepsStale {s s' : State} (x : Byte) (h : sameButStaleBytes s s') :
    sameButStaleBytes (s.pushByte x) (s'.pushByte x) := by
  obtain ⟨b, rfl, hag⟩ := sameButStaleBytes_iff.1 h
  refine sameButStaleBytes_iff.2 ⟨b.setIfInBounds s.fill.toNat x, rfl, (hag.setIfInBounds x).mono ?_⟩
  show (s.fill + 1).toNat ≤ _
  bv_omega

theorem appendBytes_keepsStale {s s' : State} (bs : List Byte) (h : sameButStaleBytes s s') :
    sameButStaleBytes (s.appendBytes bs) (s'.appendBytes bs) := by
  induction bs generalizing s s' with
  | nil => exact h
  | cons x bs ih => exact ih (pushByte_keepsStale x (flushFull_keepsStale h))

/-- PadBits reads and writes the byte below FILL; at FILL = 0 every byte is stale. -/
theorem padBits_keepsStale {s s' : State} (r : Nat) (h : sameButStaleBytes s s') :
    sameButStaleBytes (s.padBits r) (s'.padBits r) := by
  obtain ⟨b, rfl, hag⟩ := sameButStaleBytes_iff.1 h
  refine sameButStaleBytes_iff.2 ⟨_, rfl, ?_⟩
  show AgreeBelow s.fill.toNat (s.ibuf.setIfInBounds (s.fill.toNat - 1) _) (b.setIfInBounds (s.fill.toNat - 1) _)
  by_cases h0 : s.fill.toNat = 0
  · exact fun i hi => absurd hi (by omega)
  · rw [hag (s.fill.toNat - 1) (by omega)]
    exact ((hag.mono (Nat.sub_le _ 1)).setIfInBounds _).mono (by omega)

theorem appendBits_keepsStale {s s' : State} (l : Nat) (bs : List Byte) (h : sameButStaleBytes s s') :
    sameButStaleBytes (s.appendBits l bs) (s'.appendBits l bs) := by
  have hbytes := appendBytes_keepsStale bs h
  unfold State.appendBits
  split
  · exact hbytes
  · exact sameButStaleBytes_map (·.setTweakBit 55 true) (fun _ _ => rfl) rfl (.inl rfl)
      (padBits_keepsStale (l % 8) hbytes)

/-- The bytes that the zero padding puts first in IBUF: those buffered, then zeros up to Nb (43_ubi.md R213). -/
def paddedBlock (s : State) : List Byte :=
  s.ibuf.toList.take s.fill.toNat ++ List.replicate (s.blockBytes - s.fill.toNat) 0

theorem zeroPad_eq (s : State) : s.zeroPad = withIbuf s (putFirst (paddedBlock s) s.ibuf) := rfl

theorem paddedBlock_withIbuf {s : State} {b : Vector Byte 128} (h : AgreeBelow s.fill.toNat s.ibuf b) :
    paddedBlock (withIbuf s b) = paddedBlock s := by
  show b.toList.take s.fill.toNat ++ _ = s.ibuf.toList.take s.fill.toNat ++ _
  rw [h.take_eq]
  rfl

/-- Two buffers with the same first bytes put in share the whole block if these bytes reach its end. -/
theorem agreeBelow_putFirst {n : Nat} {bs : List Byte} (h : ∀ i, i < n → i < 128 → i < bs.length)
    (b c : Vector Byte 128) : AgreeBelow n (putFirst bs b) (putFirst bs c) := by
  intro i hi
  by_cases h128 : i < 128
  · rw [putFirst_getD _ _ _ _ h128, putFirst_getD _ _ _ _ h128, if_pos (h i hi h128), if_pos (h i hi h128)]
  · simp [overlay_length, Nat.le_of_not_lt h128]

/-- After the zero padding the buffers share the whole block (43_ubi.md R213). -/
theorem zeroPad_withIbuf {s : State} {b : Vector Byte 128} (h : AgreeBelow s.fill.toNat s.ibuf b) :
    ∃ c, (withIbuf s b).zeroPad = withIbuf s.zeroPad c ∧ AgreeBelow s.blockBytes s.zeroPad.ibuf c := by
  refine ⟨putFirst (paddedBlock s) b, ?_, agreeBelow_putFirst (fun i hi h128 => ?_) s.ibuf b⟩
  · rw [zeroPad_eq, paddedBlock_withIbuf h]
    rfl
  · simp only [List.length_append, List.length_take, List.length_replicate, Vector.length_toList]
    omega

theorem finish_keepsStale {s s' : State} (h : sameButStaleBytes s s') : sameButStaleBytes s.finish s'.finish := by
  obtain ⟨b, rfl, hag⟩ := sameButStaleBytes_iff.1 h
  obtain ⟨c, hpad, hblock⟩ := zeroPad_withIbuf hag
  have hb : (withIbuf s b).finish = withIbuf s.finish c := by
    show { ((withIbuf s b).zeroPad.setTweakBit 63 true).processBlock s.fill.toNat with fill := 0 } = _
    rw [hpad]
    show { (withIbuf (s.zeroPad.setTweakBit 63 true) c).processBlock s.fill.toNat with fill := 0 } = _
    rw [processBlock_withIbuf hblock]
    rfl
  rw [hb]
  exact sameButStaleBytes_of_fill_zero rfl c

theorem initNormal_keepsStale {s s' : State} (h : sameButStaleBytes s s') :
    sameButStaleBytes s.initNormal s'.initNormal :=
  sameButStaleBytes_map State.initNormal (fun _ _ => rfl) rfl (.inr rfl) h

/-- MACKEY's two derivations read no buffer byte but those of the key it appends itself (45_mac.md R273). -/
theorem keyMac_keepsStale {s s' : State} (key : List Byte) (h : sameButStaleBytes s s') :
    sameButStaleBytes (s.keyMac key) (s'.keyMac key) := by
  unfold State.keyMac
  split
  · exact initNormal_keepsStale
      (sameButStaleBytes_map (fun u => u.genConfig u.zeroKey) (fun _ _ => rfl) rfl (.inl rfl) h)
  · have hstart := sameButStaleBytes_map State.startKeyHash (fun _ _ => rfl) rfl (.inr rfl) h
    have hhash := finish_keepsStale (appendBytes_keepsStale key hstart)
    exact initNormal_keepsStale
      (sameButStaleBytes_map (fun u => u.genConfig u.chainWords) (fun _ _ => rfl) rfl (.inl rfl) hhash)

/-- DOFINAL after its last block: the digest is stored and the message restarts (44_output.md R255). -/
def outputStage (a : Nat) (s : State) : State :=
  { (s.memWrite a (digest s.words s.chainWords s.digestBytes)).initNormal with phase := .accum }

theorem finalize_eq (s : State) (a : Nat) : s.finalize a = outputStage a s.finish := by cases s; rfl

/-- DOFINAL's output stage reads the chaining value, and no buffer byte (44_output.md R251). -/
theorem finalize_keepsStale {s s' : State} (a : Nat) (h : sameButStaleBytes s s') :
    sameButStaleBytes (s.finalize a) (s'.finalize a) := by
  rw [finalize_eq, finalize_eq]
  exact sameButStaleBytes_map (outputStage a) (fun _ _ => rfl) rfl (.inr rfl) (finish_keepsStale h)

theorem gencfg_withIbuf (s : State) (b : Vector Byte 128) (a : BitVec 8) :
    effectOf (.gencfg a) (withIbuf s b) = withIbuf (effectOf (.gencfg a) s) b := by
  rw [effectOf_gencfg, effectOf_gencfg]
  rfl

theorem memWrite_withIbuf (s : State) (b : Vector Byte 128) (a : Nat) (bs : List Byte) :
    (withIbuf s b).memWrite a bs = withIbuf (s.memWrite a bs) b := rfl

/-- The commands that read or write the buffer. -/
def usesBuffer : Instr → Bool
  | .create .. | .mackey .. | .update .. | .updbits .. | .ubifin | .dofinal .. => true
  | _ => false

theorem checksOf_withIbuf (i : Instr) (s : State) (b : Vector Byte 128) :
    checksOf i (withIbuf s b) = checksOf i s := by cases i <;> rfl

theorem initMode_withIbuf (s : State) (b : Vector Byte 128) (a : BitVec 8) :
    (withIbuf s b).initMode a = withIbuf (s.initMode a) b := by
  unfold State.initMode
  split_ifs <;> rfl

theorem effectOf_withIbuf {i : Instr} (hi : usesBuffer i = false) (s : State) (b : Vector Byte 128) :
    effectOf i (withIbuf s b) = withIbuf (effectOf i s) b := by
  cases i with
  | init a => exact initMode_withIbuf s b a
  | gencfg a => exact gencfg_withIbuf s b a
  | sttweak addr _ => exact memWrite_withIbuf s b addr.toNat (leBytes [s.t0, s.t1])
  | create | mackey | update | updbits | ubifin | dofinal => cases hi
  | _ => cases s; rfl

theorem effectOf_ibuf {i : Instr} (hi : usesBuffer i = false) (s : State) : (effectOf i s).ibuf = s.ibuf := by
  cases i with
  | create | mackey | update | updbits | ubifin | dofinal => cases hi
  | gencfg a => simp [effectOf_gencfg]
  | _ => simp [effectOf]

/-- A command that does not use the buffer keeps FILL, or empties the buffer. -/
theorem effectOf_fill {i : Instr} (hi : usesBuffer i = false) (s : State) :
    (effectOf i s).fill = s.fill ∨ (effectOf i s).fill = 0 := by
  cases i with
  | create | mackey | update | updbits | ubifin | dofinal => cases hi
  | gencfg a => simp [effectOf_gencfg]
  | _ => simp [effectOf]

theorem effectOf_keepsStale (i : Instr) {s s' : State} (h : sameButStaleBytes s s') :
    sameButStaleBytes (effectOf i s) (effectOf i s') := by
  cases hi : usesBuffer i with
  | false =>
    exact sameButStaleBytes_map (effectOf i) (effectOf_withIbuf hi) (effectOf_ibuf hi s) (effectOf_fill hi s) h
  | true =>
    obtain ⟨b, rfl, -⟩ := sameButStaleBytes_iff.1 h
    cases i with
    | create a imm => exact sameButStaleBytes_refl (s.createEngine a imm)
    | mackey addr len => exact keyMac_keepsStale (s.memRead addr.toNat len.toNat) h
    | update addr len => exact appendBytes_keepsStale (s.memRead addr.toNat len.toNat) h
    | updbits addr len =>
      exact appendBits_keepsStale len.toNat (s.memRead addr.toNat (bytesOfBits len.toNat)) h
    | ubifin => exact finish_keepsStale h
    | dofinal addr => exact finalize_keepsStale addr.toNat h
    | _ => cases hi

/-- Settles O42: the checks read no buffer byte, and each effect keeps the two states alike but for stale bytes. -/
theorem staleBufferBytesAreNeverRead : Obligations.StaleBufferBytesAreNeverRead := by
  intro i s s' _ _ h
  have hchecks : checksOf i s' = checksOf i s := by
    obtain ⟨b, rfl, -⟩ := sameButStaleBytes_iff.1 h
    exact checksOf_withIbuf i s b
  cases hc : firstError (checksOf i s) with
  | some e =>
    exact ⟨_, _, exec_error hc, exec_error (hchecks ▸ hc),
      sameButStaleBytes_map (·.takeError e (encode i)) (fun _ _ => rfl) rfl (.inl rfl) h⟩
  | none =>
    exact ⟨_, _, exec_ok hc, exec_ok (hchecks ▸ hc),
      sameButStaleBytes_map State.advancePc (fun _ _ => rfl) rfl (.inl rfl) (effectOf_keepsStale i h)⟩

/-! ### TFK and TFT -/

/-- The state with other values in the raw-cipher registers. -/
def withRaw (k : Vector Word 16) (w : Vector Word 2) (s : State) : State := { s with tfk := k, tft := w }

section

variable (k : Vector Word 16) (w : Vector Word 2) (s : State)

theorem flushFull_withRaw : (withRaw k w s).flushFull = withRaw k w s.flushFull := by
  unfold State.flushFull
  rw [apply_ite (withRaw k w)]
  rfl

theorem appendByte_withRaw (b : Byte) : (withRaw k w s).appendByte b = withRaw k w (s.appendByte b) := by
  unfold State.appendByte
  rw [flushFull_withRaw]
  rfl

theorem appendBytes_withRaw (bs : List Byte) : (withRaw k w s).appendBytes bs = withRaw k w (s.appendBytes bs) := by
  induction bs generalizing s with
  | nil => rfl
  | cons b bs ih => rw [State.appendBytes_cons, appendByte_withRaw, ih, State.appendBytes_cons]

theorem appendBits_withRaw (l : Nat) (bs : List Byte) :
    (withRaw k w s).appendBits l bs = withRaw k w (s.appendBits l bs) := by
  unfold State.appendBits
  rw [appendBytes_withRaw, apply_ite (withRaw k w)]
  rfl

theorem finish_withRaw : (withRaw k w s).finish = withRaw k w s.finish := by cases s; rfl

theorem initNormal_withRaw : (withRaw k w s).initNormal = withRaw k w s.initNormal := by cases s; rfl

theorem genConfig_withRaw (key : List Word) : (withRaw k w s).genConfig key = withRaw k w (s.genConfig key) := by
  cases s; rfl

theorem keyMac_withRaw (key : List Byte) : (withRaw k w s).keyMac key = withRaw k w (s.keyMac key) := by
  have hstart : (withRaw k w s).startKeyHash = withRaw k w s.startKeyHash := by cases s; rfl
  unfold State.keyMac
  simp only [hstart, appendBytes_withRaw, finish_withRaw, genConfig_withRaw, initNormal_withRaw,
    apply_ite (withRaw k w)]
  rfl

theorem initMode_withRaw (a : BitVec 8) : (withRaw k w s).initMode a = withRaw k w (s.initMode a) := by
  unfold State.initMode
  simp only [apply_ite (withRaw k w)]
  rfl

theorem gencfg_withRaw (a : BitVec 8) :
    effectOf (.gencfg a) (withRaw k w s) = withRaw k w (effectOf (.gencfg a) s) := by
  rw [effectOf_gencfg, effectOf_gencfg]
  exact genConfig_withRaw k w s _

theorem memWrite_withRaw (a : Nat) (bs : List Byte) :
    (withRaw k w s).memWrite a bs = withRaw k w (s.memWrite a bs) := rfl

theorem finalize_withRaw (a : Nat) : (withRaw k w s).finalize a = withRaw k w (s.finalize a) := by cases s; rfl

theorem checksOf_withRaw (i : Instr) : checksOf i (withRaw k w s) = checksOf i s := by cases i <;> rfl

/-- Only TFKEY, TFTWEAK and TFENC read the raw-cipher registers, and CREATE clears them (10_state.md R30): every other
effect passes them through. -/
theorem effectOf_withRaw {i : Instr} (hi : usesRawCipher i = false) :
    effectOf i (withRaw k w s) = withRaw k w (effectOf i s) := by
  cases i with
  | create | tfkey | tftweak | tfenc => cases hi
  | gencfg a => exact gencfg_withRaw k w s a
  | sttweak addr _ => exact memWrite_withRaw k w s addr.toNat (leBytes [s.t0, s.t1])
  | mackey addr len => exact keyMac_withRaw k w s (s.memRead addr.toNat len.toNat)
  | init a => exact initMode_withRaw k w s a
  | update addr len => exact appendBytes_withRaw k w s (s.memRead addr.toNat len.toNat)
  | updbits addr len =>
    exact appendBits_withRaw k w s len.toNat (s.memRead addr.toNat (bytesOfBits len.toNat))
  | ubifin => exact finish_withRaw k w s
  | dofinal addr => exact finalize_withRaw k w s addr.toNat
  | _ => cases s; rfl

theorem exec_withRaw {i : Instr} {t : State} (hi : usesRawCipher i = false) (h : exec i s = .next t) :
    exec i (withRaw k w s) = .next (withRaw k w t) := by
  rcases exec_cases h with ⟨e, hc, rfl⟩ | ⟨hc, rfl⟩ <;> rw [← checksOf_withRaw k w s i] at hc
  · exact exec_error hc
  · rw [exec_ok hc, effectOf_withRaw k w s hi]
    rfl

end

/-- Settles O22: the effect commutes with replacing TFK and TFT; at the values they hold that says it keeps them. -/
theorem ubiCommandsIgnoreTheRawRegisters : Obligations.UbiCommandsIgnoreTheRawRegisters := by
  intro i s t k w hi h
  have hsame : exec i s = .next (withRaw s.tfk s.tft t) := exec_withRaw s.tfk s.tft s hi h
  have ht : t = withRaw s.tfk s.tft t := by
    rw [h] at hsame
    exact Host.Outcome.next.inj hsame
  have htfk : t.tfk = (withRaw s.tfk s.tft t).tfk := congrArg State.tfk ht
  have htft : t.tft = (withRaw s.tfk s.tft t).tft := congrArg State.tft ht
  exact ⟨htfk, htft, exec_withRaw k w s hi h⟩

/-! ### Which command writes which register -/

/-- The fields that no effect of a command writes: the interrupt enables, the parameters and the model's own. -/
structure SameOutside (s t : State) : Prop where
  ieDone : t.ieDone = s.ieDone
  ieErr : t.ieErr = s.ieErr
  cfg : t.cfg = s.cfg
  turns : t.turns = s.turns
  hostData : t.hostData = s.hostData
  freeCtr : t.freeCtr = s.freeCtr

/-- The hash in progress: STATE, T0, T1, IBUF and FILL. -/
structure SameHash (s t : State) : Prop where
  chain : t.chain = s.chain
  t0 : t.t0 = s.t0
  t1 : t.t1 = s.t1
  ibuf : t.ibuf = s.ibuf
  fill : t.fill = s.fill

theorem effectOf_sameOutside (i : Instr) (s : State) : SameOutside s (effectOf i s) := by
  cases i with
  | gencfg a => constructor <;> simp [effectOf_gencfg]
  | _ => constructor <;> simp [effectOf]

theorem effectOf_nw_outbits {i : Instr} (hi : ∀ a imm, i ≠ .create a imm) (s : State) :
    (effectOf i s).nw = s.nw ∧ (effectOf i s).outbits = s.outbits := by
  cases i with
  | create a imm => exact absurd rfl (hi a imm)
  | gencfg a => simp [effectOf_gencfg]
  | _ => simp [effectOf]

/-- DOFINAL leaves PHASE at ACCUM, where it was; no other command but CREATE writes PHASE (10_state.md R27). -/
theorem effectOf_phase {i : Instr} (hi : ∀ a imm, i ≠ .create a imm) {s : State}
    (hc : firstError (checksOf i s) = none) (hf : s.phase ≠ .finalized) : (effectOf i s).phase = s.phase := by
  cases i with
  | create a imm => exact absurd rfl (hi a imm)
  | gencfg a => simp [effectOf_gencfg]
  | dofinal addr =>
    have hu := phase_ne_uninit_of_checks hc rfl
    show Phase.accum = s.phase
    cases hp : s.phase with
    | accum => rfl
    | uninit => exact absurd hp hu
    | finalized => exact absurd hp hf
  | _ => simp [effectOf]

theorem effectOf_dmem {i : Instr} (hi : mayStore i = false) (s : State) : (effectOf i s).dmem = s.dmem := by
  cases i with
  | ststate | sttweak | dofinal | tfenc => cases hi
  | gencfg a => simp [effectOf_gencfg]
  | _ => simp [effectOf]

theorem effectOf_cfgstr {i : Instr} (hi : mayConfigure i = false) (s : State) :
    (effectOf i s).cfgstr = s.cfgstr := by
  cases i with
  | create | setschema | setver | setleaf | setfan | setheight => cases hi
  | gencfg a => simp [effectOf_gencfg]
  | _ => simp [effectOf]

/-- INIT's modes up to 2 are those that leave CFGVAL, and its check refuses those above 3 (43_ubi.md R220). -/
theorem init_mode_of_not_three {a : BitVec 8} {s : State} (hc : firstError (checksOf (.init a) s) = none)
    (ha : mayDeriveConfig (.init a) = false) : a = 0 ∨ a = 1 ∨ a = 2 := by
  have hle := firstError_eq_none.1 hc (illegalWhen (decide (3 < a.toNat))) (by simp [checksOf])
  simp only [illegalWhen, decide_eq_false_iff_not] at hle
  simp only [mayDeriveConfig, beq_eq_false_iff_ne, ne_eq] at ha
  bv_omega

theorem effectOf_cfgval {i : Instr} (hi : mayDeriveConfig i = false) {s : State}
    (hc : firstError (checksOf i s) = none) : (effectOf i s).cfgval = s.cfgval := by
  cases i with
  | create | gencfg | mackey => cases hi
  | init a => exact State.initMode_cfgval s a (init_mode_of_not_three hc hi)
  | _ => simp [effectOf]

theorem effectOf_sameHash {i : Instr} (hi : leavesHash i = true) (s : State) : SameHash s (effectOf i s) := by
  cases i with
  | create | mackey | init | ldstate | update | updbits | ubifin | dofinal | twstart | twflag | twlevel | twadd =>
    cases hi
  | gencfg a => constructor <;> simp [effectOf_gencfg]
  | _ => constructor <;> simp [effectOf]

/-- Settles O41: the error entry writes none of these registers, and neither does the PC's advance; what is left is the
frame of each effect. -/
theorem onlyTheirCommandsWriteTheRegisters : Obligations.OnlyTheirCommandsWriteTheRegisters := by
  intro i s t h
  rcases exec_cases h with ⟨e, -, rfl⟩ | ⟨hc, rfl⟩
  · simp
  · obtain ⟨hd, he, hcfg, htn, hdata, hctr⟩ := effectOf_sameOutside i s
    refine ⟨fun hi => ?_, fun hi => ?_, fun hi => effectOf_cfgstr hi s, fun hi => effectOf_cfgval hi hc, fun hi => ?_,
      hd, he, hcfg, htn, hdata, hctr⟩
    · obtain ⟨hnw, hout⟩ := effectOf_nw_outbits hi s
      exact ⟨hnw, hout, effectOf_phase hi hc⟩
    · have hm := effectOf_dmem hi s
      exact ⟨hm, fun x => congrArg (Memory.read · x) hm⟩
    · obtain ⟨hchain, ht0, ht1, hbuf, hfill⟩ := effectOf_sameHash hi s
      exact ⟨hchain, ht0, ht1, hbuf, hfill⟩

/-! ### What a step can do -/

/-- Everything one step can do to the state whose turn has been used up. -/
inductive StepEffect (s : State) : State → Prop where
  /-- The idle sequencer changes nothing (70_reset_and_hazards.md R342). -/
  | idle : StepEffect s s
  /-- A fetch that finds no command takes its error entry (46_sequencer.md R290). -/
  | fetchError (e : ErrorCode) (w : Word) : s.busy = true → StepEffect s (s.takeError e w)
  /-- A command runs (46_sequencer.md R290). -/
  | command (i : Instr) (t : State) : s.busy = true → exec i s = .next t → StepEffect s t
  /-- The host reads (20_memory.md R67). -/
  | hostRead (p : PortTarget) (n : Nat) : StepEffect s (s.hostRead p n)
  /-- The host writes (20_memory.md R67). -/
  | hostWrite (p : PortTarget) (n : Nat) (v : Word) : StepEffect s (s.hostWrite p n v)
  /-- The hardware reset (70_reset_and_hazards.md R340). -/
  | reset : StepEffect s s.resetRegisters

theorem engineStep_effect {s t : State} (h : engineStep s = .next t) : StepEffect s t := by
  cases hb : s.busy with
  | false =>
    rw [engineStep_idle hb] at h
    exact Host.Outcome.next.inj h ▸ .idle
  | true =>
    by_cases hpc : s.pc.toNat + 8 ≤ s.cfg.dmemSize
    · cases hd : decodeBytes (s.memRead s.pc.toNat 8) with
      | error e =>
        rw [engineStep_illegal hb hpc hd] at h
        exact Host.Outcome.next.inj h ▸ .fetchError _ _ hb
      | ok i =>
        rw [engineStep_runs hb hpc hd] at h
        exact .command i t hb h
    · rw [engineStep_pastDmem hb (Nat.lt_of_not_le hpc)] at h
      exact Host.Outcome.next.inj h ▸ .fetchError _ _ hb

theorem hostStep_effect {a : HostAccess} {s t : State} (h : hostStep a s = .next t) : StepEffect s t := by
  cases a with
  | read off n =>
    simp only [hostStep] at h
    split at h
    · exact Host.Outcome.next.inj h ▸ .hostRead _ n
    · cases h
  | write off n v =>
    simp only [hostStep] at h
    split at h
    · exact Host.Outcome.next.inj h ▸ .hostWrite _ n v
    · cases h

theorem step_effect {s t : State} (h : step s = .next t) : StepEffect (turnUsed s) t := by
  have hused : ∀ turn rest, s.turns = turn :: rest → ({ s with turns := rest } : State) = turnUsed s :=
    fun turn rest hturns => by simp [turnUsed, hturns]
  cases hturns : s.turns with
  | nil =>
    rw [step_noTurn hturns] at h
    have hs : turnUsed s = s := by cases s; subst hturns; rfl
    rw [hs]
    exact engineStep_effect h
  | cons turn rest =>
    rw [← hused turn rest hturns]
    cases turn with
    | engine => exact engineStep_effect (step_engineTurn hturns ▸ h)
    | host a => exact hostStep_effect (step_hostTurn hturns ▸ h)
    | hardwareReset =>
      rw [step_resetTurn hturns] at h
      exact Host.Outcome.next.inj h ▸ .reset

/-! ### The sequencer's registers -/

theorem errorCode_le (e : ErrorCode) : e.code.toNat ≤ 6 := by cases e <;> decide

theorem takeError_keepsSequencer {s : State} (h : SequencerInv s) (hb : s.busy = true) (e : ErrorCode) (w : Word) :
    SequencerInv (s.takeError e w) where
  pcAligned := h.pcAligned
  errpcAligned := h.pcAligned
  busyClear hbusy := by cases hbusy
  oneEnd hboth := by simp [(h.busyClear hb).1] at hboth
  errcodeLegal := errorCode_le e

/-- PC + 8 is aligned, also where it wraps at 2^24 (46_sequencer.md R290). -/
theorem pc_add_eight_aligned {p : Addr} (h : p.toNat % 8 = 0) : (p + 8).toNat % 8 = 0 := by bv_omega

theorem advancePc_keepsSequencer {s : State} (h : SequencerInv s) : SequencerInv s.advancePc :=
  { h with pcAligned := pc_add_eight_aligned h.pcAligned }

theorem haltRun_keepsSequencer {s : State} (h : SequencerInv s) (hb : s.busy = true) : SequencerInv s.haltRun where
  pcAligned := h.pcAligned
  errpcAligned := h.errpcAligned
  busyClear hbusy := by cases hbusy
  oneEnd hboth := by simp [(h.busyClear hb).2] at hboth
  errcodeLegal := h.errcodeLegal

/-- The sequencer's registers of two states are the same. -/
structure SameSequencer (s t : State) : Prop where
  pc : t.pc = s.pc
  errpc : t.errpc = s.errpc
  busy : t.busy = s.busy
  done : t.done = s.done
  err : t.err = s.err
  errcode : t.errcode = s.errcode

theorem sequencerInv_congr {s t : State} (h : SequencerInv s) (e : SameSequencer s t) : SequencerInv t := by
  obtain ⟨hpc, herrpc, hbusy, hdone, herr, hcode⟩ := e
  constructor
  · exact hpc ▸ h.pcAligned
  · exact herrpc ▸ h.errpcAligned
  · rw [hbusy, hdone, herr]
    exact h.busyClear
  · rw [hdone, herr]
    exact h.oneEnd
  · exact hcode ▸ h.errcodeLegal

/-- No effect but HALT's writes a register of the sequencer (46_sequencer.md R290, R291). -/
theorem effectOf_sameSequencer {i : Instr} (hi : i ≠ .halt) (s : State) : SameSequencer s (effectOf i s) := by
  cases i with
  | halt => exact absurd rfl hi
  | gencfg a => constructor <;> simp [effectOf_gencfg]
  | _ => constructor <;> simp [effectOf]

theorem exec_keepsSequencer {i : Instr} {s t : State} (h : SequencerInv s) (hb : s.busy = true)
    (he : exec i s = .next t) : SequencerInv t := by
  rcases exec_cases he with ⟨e, -, rfl⟩ | ⟨-, rfl⟩
  · exact takeError_keepsSequencer h hb e (encode i)
  · apply advancePc_keepsSequencer
    by_cases hi : i = .halt
    · subst hi
      exact haltRun_keepsSequencer h hb
    · exact sequencerInv_congr h (effectOf_sameSequencer hi s)

theorem resetRegisters_keepsSequencer (s : State) : SequencerInv s.resetRegisters := by
  constructor <;> simp [State.reset]

theorem startRun_keepsSequencer {s : State} (h : SequencerInv s) : SequencerInv s.startRun where
  pcAligned := h.pcAligned
  errpcAligned := h.errpcAligned
  busyClear _ := ⟨rfl, rfl⟩
  oneEnd hboth := by simp at hboth
  errcodeLegal := by simp

theorem writeCtrl_keepsSequencer {s : State} (h : SequencerInv s) (v : Word) : SequencerInv (s.writeCtrl v) := by
  unfold State.writeCtrl
  have hie : SequencerInv { s with ieDone := v.getLsbD 1, ieErr := v.getLsbD 2 } :=
    sequencerInv_congr h ⟨rfl, rfl, rfl, rfl, rfl, rfl⟩
  split
  · exact resetRegisters_keepsSequencer s
  · dsimp only
    split
    · exact startRun_keepsSequencer hie
    · exact hie

/-- A STATUS write only clears DONE and ERR (10_state.md R33). -/
theorem writeStatus_keepsSequencer {s : State} (h : SequencerInv s) (v : Word) :
    SequencerInv (s.writeStatus v) where
  pcAligned := h.pcAligned
  errpcAligned := h.errpcAligned
  busyClear hb := by
    obtain ⟨hdone, herr⟩ := h.busyClear hb
    simp [State.writeStatus, hdone, herr]
  oneEnd hboth := by
    simp only [State.writeStatus, Bool.and_eq_true] at hboth
    exact h.oneEnd ⟨hboth.1.1, hboth.2.1⟩
  errcodeLegal := h.errcodeLegal

/-- The word stored by a PC write is the written value's low 24 bits rounded down to a multiple of 8 (10_state.md R31). -/
theorem alignedPc_toNat (v : Word) : (v.extractLsb' 3 21 ++ 0#3).toNat = v.toNat % 2 ^ 24 / 8 * 8 := by
  rw [BitVec.toNat_append, BitVec.extractLsb'_toNat, Nat.shiftRight_eq_div_pow, Nat.shiftLeft_eq]
  simp only [BitVec.toNat_ofNat, Nat.zero_mod, Nat.or_zero]
  omega

theorem writePc_keepsSequencer {s : State} (h : SequencerInv s) (v : Word) : SequencerInv (s.writePc v) := by
  unfold State.writePc
  split
  · exact h
  · refine { h with pcAligned := ?_ }
    rw [alignedPc_toNat]
    exact Nat.mul_mod_left _ 8

theorem csrWrite_keepsSequencer {s : State} (h : SequencerInv s) (off : Nat) (v : Word) :
    SequencerInv (s.csrWrite off v) := by
  unfold State.csrWrite
  split
  · exact writeCtrl_keepsSequencer h v
  split
  · exact writeStatus_keepsSequencer h v
  split
  · exact writePc_keepsSequencer h v
  · exact h

theorem hostWrite_keepsSequencer {s : State} (h : SequencerInv s) (p : PortTarget) (n : Nat) (v : Word) :
    SequencerInv (s.hostWrite p n v) := by
  cases p with
  | csr off => exact csrWrite_keepsSequencer h off v
  | dmem a =>
    simp only [State.hostWrite]
    split <;> exact sequencerInv_congr h ⟨rfl, rfl, rfl, rfl, rfl, rfl⟩
  | unmapped => exact h

theorem hostRead_keepsSequencer {s : State} (h : SequencerInv s) (p : PortTarget) (n : Nat) :
    SequencerInv (s.hostRead p n) := by
  unfold State.hostRead
  split <;> exact sequencerInv_congr h ⟨rfl, rfl, rfl, rfl, rfl, rfl⟩

/-- Settles O44, by what a step can do. -/
theorem stepKeepsTheSequencerLegal : Obligations.StepKeepsTheSequencerLegal := by
  intro s t hs h
  have hused : SequencerInv (turnUsed s) := sequencerInv_congr hs ⟨rfl, rfl, rfl, rfl, rfl, rfl⟩
  cases step_effect h with
  | idle => exact hused
  | fetchError e w hb => exact takeError_keepsSequencer hused hb e w
  | command i _ hb he => exact exec_keepsSequencer hused hb he
  | hostRead p n => exact hostRead_keepsSequencer hused p n
  | hostWrite p n v => exact hostWrite_keepsSequencer hused p n v
  | reset => exact resetRegisters_keepsSequencer (turnUsed s)

/-! ### The engine's registers: what is legal in each -/

/-- The entries from `k` on are 0 (10_state.md R23, R25, R29, R30). -/
def ZeroFrom {m n : Nat} (k : Nat) (v : Vector (BitVec m) n) : Prop := ∀ i, k ≤ i → v.toList.getD i 0 = 0

theorem getD_of_size_le {m n : Nat} (v : Vector (BitVec m) n) {i : Nat} (h : n ≤ i) : v.toList.getD i 0 = 0 := by
  simp [h]

theorem zeroFrom_replicate {m : Nat} (k n : Nat) : ZeroFrom k (Vector.replicate n (0 : BitVec m)) := by
  intro i _
  by_cases hi : i < n <;> simp [hi]

theorem zeroFrom_putFirst {m n k : Nat} {ws : List (BitVec m)} {v : Vector (BitVec m) n} (hlen : ws.length ≤ k)
    (h : ZeroFrom k v) : ZeroFrom k (putFirst ws v) := by
  intro i hi
  by_cases hn : i < n
  · rw [putFirst_getD _ _ _ _ hn, if_neg (by omega)]
    exact h i hi
  · exact getD_of_size_le _ (Nat.le_of_not_lt hn)

theorem zeroFrom_setIfInBounds {m n j k : Nat} {v : Vector (BitVec m) n} (hj : j < k) (h : ZeroFrom k v)
    (x : BitVec m) : ZeroFrom k (v.setIfInBounds j x) := by
  intro i hi
  have hv := h i hi
  simp only [List.getD_eq_getElem?_getD] at hv
  simpa [List.getElem?_set, show j ≠ i by omega] using hv

/-- T1 holds a legal block type and tree level, and its reserved bits are 0 (41_tweak.md R150, R151). -/
def TweakLegal (t1 : Word) : Prop :=
  (t1.extractLsb' 56 6).setWidth 8 ∈ blockTypes ∧ (t1.extractLsb' 48 7).toNat ≤ 63 ∧ t1.extractLsb' 32 16 = 0

/-- A field outside TYPE, TREE_LEVEL and the reserved bits may take any value. -/
theorem tweakLegal_insertField {n : Nat} {t1 : Word} (h : TweakLegal t1) (lo : Nat) (v : BitVec n)
    (hout : lo + n ≤ 32 ∨ 55 ≤ lo ∧ lo + n ≤ 56 ∨ 62 ≤ lo) : TweakLegal (insertField t1 lo v) := by
  unfold TweakLegal
  rw [extract_insertField_other _ _ _ 56 6 (by omega) (by omega),
    extract_insertField_other _ _ _ 48 7 (by omega) (by omega),
    extract_insertField_other _ _ _ 32 16 (by omega) (by omega)]
  exact h

theorem tweakLegal_setLevel {t1 : Word} (h : TweakLegal t1) {v : BitVec 7} (hv : v.toNat ≤ 63) :
    TweakLegal (insertField t1 48 v) := by
  obtain ⟨htype, -, hreserved⟩ := h
  unfold TweakLegal
  rw [extract_insertField_other _ _ _ 56 6 (by omega) (by omega), extract_insertField _ _ _ (by omega),
    extract_insertField_other _ _ _ 32 16 (by omega) (by omega)]
  exact ⟨htype, hv, hreserved⟩

/-- AddPos writes T1[31:0] alone (41_tweak.md R154). -/
theorem tweakLegal_addPosition {t1 : Word} (h : TweakLegal t1) (n : Nat) (t0 : Word) :
    TweakLegal (addPosition n t0 t1).2 := tweakLegal_insertField h 0 _ (.inl (by omega))

theorem tweakLegal_startType (s : State) {a : BitVec 8} (h : a ∈ blockTypes) : TweakLegal (s.startType a).t1 := by
  have hall : ∀ b ∈ blockTypes, TweakLegal ((b.setWidth 64 <<< 56) ||| ((1 : Word) <<< 62)) := by
    unfold TweakLegal
    decide
  rw [State.startType_t1]
  exact hall a h

/-- The configuration string agrees with OUTBITS and holds legal fields (42_config.md R180). -/
structure ConfigLegal (outbits : BitVec 32) (v : Vector Word 4) : Prop where
  version : (v[0].extractLsb' 32 8).toNat ≤ 3
  reserved0 : v[0].extractLsb' 40 24 = 0
  outlen : v[1] = outbits.setWidth 64
  height : v[2].extractLsb' 16 8 ≠ 1
  reserved2 : v[2].extractLsb' 24 40 = 0
  reserved3 : v[3] = 0

theorem configLegal_set_zero {outbits : BitVec 32} {v : Vector Word 4} (h : ConfigLegal outbits v) {w : Word}
    (hver : (w.extractLsb' 32 8).toNat ≤ 3) (hres : w.extractLsb' 40 24 = 0) :
    ConfigLegal outbits (v.set 0 w) := by
  obtain ⟨-, -, hlen, hheight, hres2, hres3⟩ := h
  constructor <;> simpa

theorem configLegal_set_two {outbits : BitVec 32} {v : Vector Word 4} (h : ConfigLegal outbits v) {w : Word}
    (hheight : w.extractLsb' 16 8 ≠ 1) (hres : w.extractLsb' 24 40 = 0) :
    ConfigLegal outbits (v.set 2 w) := by
  obtain ⟨hver, hres0, hlen, -, -, hres3⟩ := h
  constructor <;> simpa

theorem configLegal_default (outbits : BitVec 32) : ConfigLegal outbits (defaultConfig outbits) where
  version := (by decide : ((0x0000000133414853 : Word).extractLsb' 32 8).toNat ≤ 3)
  reserved0 := (by decide : (0x0000000133414853 : Word).extractLsb' 40 24 = 0)
  outlen := rfl
  height := (by decide : (0 : Word).extractLsb' 16 8 ≠ 1)
  reserved2 := (by decide : (0 : Word).extractLsb' 24 40 = 0)
  reserved3 := rfl

/-! ### A created engine -/

/-- The registers of a created engine, one clause per register: `EngineInv` in the phase ACCUM. -/
structure CreatedEngine (s : State) : Prop where
  phase : s.phase = .accum
  size : s.nw ∈ stateSizes
  outbits : 1 ≤ s.outbits.toNat ∧ s.outbits.toNat < 2 ^ 31
  tweak : TweakLegal s.t1
  config : ConfigLegal s.outbits s.cfgstr
  fill : s.fill.toNat ≤ s.blockBytes
  chain : ZeroFrom s.words s.chain
  cfgval : ZeroFrom s.words s.cfgval
  tfk : ZeroFrom s.words s.tfk
  ibuf : ZeroFrom s.blockBytes s.ibuf

theorem createdEngine_of_engineInv {s : State} (h : EngineInv s) (hp : s.phase = .accum) : CreatedEngine s := by
  have c := h.created hp
  obtain ⟨hres0, hres2, hres3⟩ := c.configReserved
  exact {
    phase := hp
    size := c.sizeLegal
    outbits := c.outbitsLegal
    tweak := ⟨c.typeLegal, c.levelLegal, c.tweakReserved⟩
    config := ⟨c.versionLegal, hres0, c.outlen, c.heightLegal, hres2, hres3⟩
    fill := h.fillLegal
    chain := h.chainTail
    cfgval := h.cfgvalTail
    tfk := h.tfkTail
    ibuf := h.ibufTail }

theorem engineInv_of_createdEngine {s : State} (h : CreatedEngine s) : EngineInv s := by
  obtain ⟨htype, hlevel, hreserved⟩ := h.tweak
  obtain ⟨hver, hres0, hlen, hheight, hres2, hres3⟩ := h.config
  exact {
    phaseLegal := by simp [h.phase]
    uncreated := fun hu => by simp [h.phase] at hu
    created := fun _ => ⟨h.size, h.outbits, htype, hlevel, hreserved, hver, ⟨hres0, hres2, hres3⟩, hlen, hheight⟩
    fillLegal := h.fill
    chainTail := h.chain
    cfgvalTail := h.cfgval
    tfkTail := h.tfk
    ibufTail := h.ibuf }

theorem four_le_words {s : State} (h : CreatedEngine s) : 4 ≤ s.words := by
  have hall : ∀ a ∈ stateSizes, 4 ≤ a.toNat := by decide
  exact hall _ h.size

section

variable {s : State} (h : CreatedEngine s)
include h

theorem setTweakBit_created {bit : Nat} (hbit : bit = 55 ∨ bit = 62 ∨ bit = 63) (v : Bool) :
    CreatedEngine (s.setTweakBit bit v) :=
  { h with tweak := tweakLegal_insertField h.tweak bit _ (by omega) }

theorem setTreeLevel_created {l : BitVec 7} (hl : l.toNat ≤ 63) : CreatedEngine (s.setTreeLevel l) :=
  { h with tweak := tweakLegal_setLevel h.tweak hl }

theorem addPos_created (n : Nat) : CreatedEngine (s.addPos n) :=
  { h with tweak := tweakLegal_addPosition h.tweak n s.t0 }

theorem startType_created {a : BitVec 8} (ha : a ∈ blockTypes) : CreatedEngine (s.startType a) :=
  { h with tweak := tweakLegal_startType s ha }

theorem emptyBuffer_created : CreatedEngine { s with fill := 0 } := { h with fill := Nat.zero_le _ }

/-- Loading STATE[0..Nw-1] keeps the zeros beyond it. -/
theorem loadChain_created {ws : List Word} (hlen : ws.length ≤ s.words) :
    CreatedEngine { s with chain := putFirst ws s.chain } := { h with chain := zeroFrom_putFirst hlen h.chain }

theorem restartWith_created {ws : List Word} (hlen : ws.length ≤ s.words) : CreatedEngine (s.restartWith ws) :=
  emptyBuffer_created (loadChain_created (startType_created h (a := 48) (by decide)) hlen)

theorem initNormal_created : CreatedEngine s.initNormal :=
  restartWith_created h (ws := takeFirst s.words s.cfgval) (by simp)

theorem startKeyHash_created : CreatedEngine s.startKeyHash :=
  emptyBuffer_created (loadChain_created (startType_created h (a := 0) (by decide)) (ws := s.zeroKey)
    (by simp [State.zeroKey, State.words]))

theorem genConfig_created (key : List Word) : CreatedEngine (s.genConfig key) := by
  have hcb : s.configBlock.length ≤ s.words := by
    have := four_le_words h
    simp only [State.configBlock, List.length_append, Vector.length_toList, List.length_replicate]
    omega
  refine { h with cfgval := zeroFrom_putFirst ?_ (zeroFrom_replicate _ 16) }
  rw [xorWords_length]
  exact le_trans (Nat.min_le_right _ _) hcb

theorem processBlock_created (n : Nat) : CreatedEngine (s.processBlock n) := by
  refine { h with
    tweak := tweakLegal_addPosition h.tweak n s.t0
    chain := zeroFrom_putFirst ?_ h.chain }
  rw [xorWords_length]
  exact le_trans (Nat.min_le_right _ _) (by simp [State.bufferWords, State.words])

theorem flushFull_created : CreatedEngine s.flushFull := by
  unfold State.flushFull
  split
  · exact emptyBuffer_created (setTweakBit_created (processBlock_created h _) (by decide) false)
  · exact h

/-- After the lazy transform the buffer has room (43_ubi.md R212). -/
theorem flushFull_fill_lt : s.flushFull.fill.toNat < s.blockBytes := by
  have hfill := h.fill
  have hw := four_le_words h
  unfold State.flushFull
  split
  · show 0 < 8 * s.words
    omega
  · omega

theorem pushByte_created (hroom : s.fill.toNat < s.blockBytes) (b : Byte) : CreatedEngine (s.pushByte b) := by
  refine { h with fill := ?_, ibuf := zeroFrom_setIfInBounds hroom h.ibuf b }
  show (s.fill + 1).toNat ≤ s.blockBytes
  have : (s.fill + 1).toNat ≤ s.fill.toNat + 1 := by bv_omega
  omega

theorem appendByte_created (b : Byte) : CreatedEngine (s.appendByte b) := by
  have hroom : s.flushFull.fill.toNat < s.flushFull.blockBytes := by
    simpa [State.blockBytes_eq] using flushFull_fill_lt h
  exact pushByte_created (flushFull_created h) hroom b

theorem zeroPad_created : CreatedEngine s.zeroPad := by
  have hfill := h.fill
  refine { h with ibuf := zeroFrom_putFirst ?_ h.ibuf }
  simp only [List.length_append, List.length_take, List.length_replicate, Vector.length_toList]
  show _ ≤ s.blockBytes
  omega

theorem finish_created : CreatedEngine s.finish :=
  emptyBuffer_created (processBlock_created (setTweakBit_created (zeroPad_created h) (by decide) true) _)

theorem padBits_created (r : Nat) : CreatedEngine (s.padBits r) := by
  have hfill := h.fill
  have hw := four_le_words h
  refine { h with ibuf := zeroFrom_setIfInBounds ?_ h.ibuf _ }
  show s.fill.toNat - 1 < 8 * s.words
  simp only [State.blockBytes] at hfill
  omega

theorem initMode_created (a : BitVec 8) : CreatedEngine (s.initMode a) := by
  unfold State.initMode
  split_ifs
  · exact initNormal_created h
  · exact restartWith_created h (by simp [State.zeroKey])
  · exact emptyBuffer_created (startType_created h (by decide))
  · exact initNormal_created (genConfig_created h s.chainWords)

theorem finalize_created (a : Nat) : CreatedEngine (s.finalize a) := by
  have hfin := initNormal_created (finish_created h)
  rw [finalize_eq]
  exact { hfin with phase := rfl }

end

theorem appendBytes_created {s : State} (h : CreatedEngine s) (bs : List Byte) : CreatedEngine (s.appendBytes bs) := by
  induction bs generalizing s with
  | nil => exact h
  | cons b bs ih => exact ih (appendByte_created h b)

theorem appendBits_created {s : State} (h : CreatedEngine s) (l : Nat) (bs : List Byte) :
    CreatedEngine (s.appendBits l bs) := by
  unfold State.appendBits
  split
  · exact appendBytes_created h bs
  · exact setTweakBit_created (padBits_created (appendBytes_created h bs) _) (by decide) true

theorem keyMac_created {s : State} (h : CreatedEngine s) (key : List Byte) : CreatedEngine (s.keyMac key) := by
  unfold State.keyMac
  split
  · exact initNormal_created (genConfig_created h s.zeroKey)
  · have hhash := finish_created (appendBytes_created (startKeyHash_created h) key)
    exact initNormal_created (genConfig_created hhash _)

/-- What CREATE's derivation starts from: the new size and output length, every other register of the engine as CREATE
clears it (42_config.md R190). -/
def blankEngine (a : BitVec 8) (imm : BitVec 32) (s : State) : State :=
  { s.startType 48 with
    nw := a, outbits := imm, phase := .accum, fill := 0, cfgstr := defaultConfig imm
    chain := Vector.replicate 16 0, cfgval := Vector.replicate 16 0, ibuf := Vector.replicate 128 0
    tfk := Vector.replicate 16 0, tft := Vector.replicate 2 0 }

theorem createEngine_eq (s : State) (a : BitVec 8) (imm : BitVec 32) :
    s.createEngine a imm = ((blankEngine a imm s).genConfig (blankEngine a imm s).zeroKey).initNormal := by
  cases s; rfl

theorem blankEngine_created {a : BitVec 8} {imm : BitVec 32} (ha : a ∈ stateSizes)
    (himm : 1 ≤ imm.toNat ∧ imm.toNat < 2 ^ 31) (s : State) : CreatedEngine (blankEngine a imm s) where
  phase := rfl
  size := ha
  outbits := himm
  tweak := tweakLegal_startType s (by decide)
  config := configLegal_default imm
  fill := Nat.zero_le _
  chain := zeroFrom_replicate _ 16
  cfgval := zeroFrom_replicate _ 16
  tfk := zeroFrom_replicate _ 16
  ibuf := zeroFrom_replicate _ 128

/-- CREATE's checks: a legal state size, and an output length that is positive as a signed number (42_config.md R190). -/
theorem create_operands_of_checks {a : BitVec 8} {imm : BitVec 32} {s : State}
    (hc : firstError (checksOf (.create a imm) s) = none) :
    a ∈ stateSizes ∧ 1 ≤ imm.toNat ∧ imm.toNat < 2 ^ 31 := by
  have hall := firstError_eq_none.1 hc
  simp only [checksOf, List.forall_mem_cons, Bool.not_eq_false', List.contains_iff_mem, decide_eq_false_iff_not]
    at hall
  obtain ⟨ha, himm, -⟩ := hall
  refine ⟨ha, ?_⟩
  rw [BitVec.toInt_eq_toNat_cond] at himm
  split at himm <;> omega

theorem createEngine_created {a : BitVec 8} {imm : BitVec 32} {s : State}
    (hc : firstError (checksOf (.create a imm) s) = none) : CreatedEngine (s.createEngine a imm) := by
  obtain ⟨ha, himm⟩ := create_operands_of_checks hc
  rw [createEngine_eq]
  exact initNormal_created (genConfig_created (blankEngine_created ha himm s) _)

/-! ### The engine's registers through every command and every step -/

/-- A field written within the low half of CFGSTR[2], below MAX_HEIGHT, may take any value (42_config.md R193, R194). -/
theorem setTreeField_created {s : State} (h : CreatedEngine s) {n : Nat} (lo : Nat) (v : BitVec n) (hout : lo + n ≤ 16) :
    CreatedEngine (s.setConfigField 2 lo v) := by
  refine { h with config := configLegal_set_two h.config ?_ ?_ }
  · rw [extract_insertField_other _ _ _ 16 8 (by omega) (by omega)]
    exact h.config.height
  · rw [extract_insertField_other _ _ _ 24 40 (by omega) (by omega)]
    exact h.config.reserved2

theorem setHeight_created {s : State} (h : CreatedEngine s) {a : BitVec 8} (ha : a ≠ 1) :
    CreatedEngine (s.setConfigField 2 16 a) := by
  refine { h with config := configLegal_set_two h.config ?_ ?_ }
  · rw [extract_insertField _ _ _ (by omega)]
    exact ha
  · rw [extract_insertField_other _ _ _ 24 40 (by omega) (by omega)]
    exact h.config.reserved2

theorem setSchema_created {s : State} (h : CreatedEngine s) (v : BitVec 32) :
    CreatedEngine (s.setConfigField 0 0 v) := by
  refine { h with config := configLegal_set_zero h.config ?_ ?_ }
  · rw [extract_insertField_other _ _ _ 32 8 (by omega) (by omega)]
    exact h.config.version
  · rw [extract_insertField_other _ _ _ 40 24 (by omega) (by omega)]
    exact h.config.reserved0

theorem setVersion_created {s : State} (h : CreatedEngine s) {v : BitVec 8} (hv : v.toNat ≤ 3) :
    CreatedEngine (s.setConfigField 0 32 v) := by
  refine { h with config := configLegal_set_zero h.config ?_ ?_ }
  · rw [extract_insertField _ _ _ (by omega)]
    exact hv
  · rw [extract_insertField_other _ _ _ 40 24 (by omega) (by omega)]
    exact h.config.reserved0

theorem memWrite_created {s : State} (h : CreatedEngine s) (a : Nat) (bs : List Byte) :
    CreatedEngine (s.memWrite a bs) := { h with }

/-- Loading TFK[0..Nw-1] keeps the zeros beyond it (40_threefish.md R125). -/
theorem loadRawKey_created {s : State} (h : CreatedEngine s) {ws : List Word} (hlen : ws.length ≤ s.words) :
    CreatedEngine { s with tfk := putFirst ws s.tfk } := { h with tfk := zeroFrom_putFirst hlen h.tfk }

theorem flagBit_cases (a : BitVec 8) : flagBit a = 55 ∨ flagBit a = 62 ∨ flagBit a = 63 := by
  unfold flagBit
  split_ifs <;> simp

/-- A low part of an operand is no larger than the operand. -/
theorem extractLow_le {m n k : Nat} {v : BitVec m} (h : v.toNat ≤ k) : (v.extractLsb' 0 n).toNat ≤ k := by
  rw [BitVec.extractLsb'_toNat, Nat.shiftRight_zero]
  exact le_trans (Nat.mod_le _ _) h

/-- Every effect of a command that needs an engine keeps it legal; the checks bound the operands that the registers
take over. -/
theorem effectOf_created {i : Instr} {s : State} (h : CreatedEngine s) (hi : runsUncreated i = false)
    (hc : firstError (checksOf i s) = none) : CreatedEngine (effectOf i s) := by
  have hall := firstError_eq_none.1 hc
  cases i with
  | halt | nop | create => cases hi
  | setschema => exact setSchema_created h _
  | setver imm =>
    have himm : imm.toNat ≤ 3 := by
      simpa using hall (decide (3 < imm.toNat), .invalidArgument) (by simp [checksOf])
    exact setVersion_created h (extractLow_le himm)
  | setleaf a => exact setTreeField_created h 0 a (by omega)
  | setfan a => exact setTreeField_created h 8 a (by omega)
  | setheight a =>
    have ha : a ≠ 1 := by simpa using hall (a == 1, .invalidArgument) (by simp [checksOf])
    exact setHeight_created h ha
  | gencfg a =>
    rw [effectOf_gencfg]
    exact genConfig_created h _
  | mackey => exact keyMac_created h _
  | init a => exact initMode_created h a
  | ldstate => exact restartWith_created h (by simp [State.memWords, State.words])
  | ststate => exact memWrite_created h _ _
  | update => exact appendBytes_created h _
  | updbits => exact appendBits_created h _ _
  | ubifin => exact finish_created h
  | dofinal addr => exact finalize_created h addr.toNat
  | twstart a =>
    have ha : a ∈ blockTypes := by
      simpa using hall (!blockTypes.contains a, .invalidArgument) (by simp [checksOf])
    exact startType_created h ha
  | twflag a => exact setTweakBit_created h (flagBit_cases a) _
  | twlevel a =>
    have ha : a.toNat ≤ 63 := by
      simpa using hall (decide (63 < a.toNat), .invalidArgument) (by simp [checksOf])
    exact setTreeLevel_created h (extractLow_le ha)
  | twadd imm => exact addPos_created h imm.toNat
  | sttweak addr _ => exact memWrite_created h addr.toNat (leBytes [s.t0, s.t1])
  | tfkey => exact loadRawKey_created h (by simp [State.memWords])
  | tftweak => exact { h with }
  | tfenc => exact memWrite_created h _ _

/-- Two states with the same engine: they differ at most in the parameters, the sequencer's registers, the enables, DMEM and
the model's own fields. -/
def SameEngine (s t : State) : Prop :=
  t = { s with
    cfg := t.cfg, pc := t.pc, ieDone := t.ieDone, ieErr := t.ieErr, busy := t.busy, done := t.done, err := t.err
    errcode := t.errcode, errpc := t.errpc, errcmd := t.errcmd, dmem := t.dmem, turns := t.turns
    hostData := t.hostData, freeCtr := t.freeCtr }

theorem engineInv_congr {s t : State} (h : EngineInv s) (e : SameEngine s t) : EngineInv t := by
  rw [e]
  exact { h with
    uncreated := fun hu => { h.uncreated hu with }
    created := fun hp => { h.created hp with } }

theorem exec_keepsEngine {i : Instr} {s t : State} (h : EngineInv s) (he : exec i s = .next t) : EngineInv t := by
  rcases exec_cases he with ⟨e, -, rfl⟩ | ⟨hc, rfl⟩
  · exact engineInv_congr h rfl
  · suffices heff : EngineInv (effectOf i s) from engineInv_congr heff rfl
    cases hi : runsUncreated i with
    | true =>
      cases i with
      | halt => exact engineInv_congr h rfl
      | nop => exact h
      | create a imm => exact engineInv_of_createdEngine (createEngine_created hc)
      | _ => cases hi
    | false =>
      have hphase : s.phase = .accum := by
        have hu := phase_ne_uninit_of_checks hc hi
        have hf := h.phaseLegal
        cases hp : s.phase with
        | accum => rfl
        | uninit => exact absurd hp hu
        | finalized => exact absurd hp hf
      exact engineInv_of_createdEngine (effectOf_created (createdEngine_of_engineInv h hphase) hi hc)

theorem resetRegisters_engineInv (s : State) : EngineInv s.resetRegisters where
  phaseLegal := by simp [State.reset]
  uncreated _ := by constructor <;> simp [State.reset]
  created hp := by simp [State.reset] at hp
  fillLegal := Nat.zero_le _
  chainTail := zeroFrom_replicate _ 16
  cfgvalTail := zeroFrom_replicate _ 16
  tfkTail := zeroFrom_replicate _ 16
  ibufTail := zeroFrom_replicate _ 128

/-- Of the CSR writes only SRST reaches the engine (10_state.md R36, 70_reset_and_hazards.md R341). -/
theorem csrWrite_keepsEngine {s : State} (h : EngineInv s) (off : Nat) (v : Word) : EngineInv (s.csrWrite off v) := by
  simp only [State.csrWrite, State.writeCtrl, State.writePc]
  split_ifs
  · exact resetRegisters_engineInv s
  all_goals exact engineInv_congr h rfl

theorem hostWrite_keepsEngine {s : State} (h : EngineInv s) (p : PortTarget) (n : Nat) (v : Word) :
    EngineInv (s.hostWrite p n v) := by
  cases p with
  | csr off => exact csrWrite_keepsEngine h off v
  | dmem a =>
    simp only [State.hostWrite]
    split <;> exact engineInv_congr h rfl
  | unmapped => exact h

theorem hostRead_keepsEngine {s : State} (h : EngineInv s) (p : PortTarget) (n : Nat) : EngineInv (s.hostRead p n) := by
  unfold State.hostRead
  split <;> exact engineInv_congr h rfl

/-- Settles O45, by what a step can do. -/
theorem stepKeepsTheEngineLegal : Obligations.StepKeepsTheEngineLegal := by
  intro s t hs h
  have hused : EngineInv (turnUsed s) := engineInv_congr hs rfl
  cases step_effect h with
  | idle => exact hused
  | fetchError => exact engineInv_congr hused rfl
  | command i _ _ he => exact exec_keepsEngine hused he
  | hostRead p n => exact hostRead_keepsEngine hused p n
  | hostWrite p n v => exact hostWrite_keepsEngine hused p n v
  | reset => exact resetRegisters_engineInv (turnUsed s)

/-! ### The host port shows and writes the registers -/

/-- The CSR block takes aligned accesses of eight bytes (20_memory.md R68). -/
theorem accessInSpec_csr {off : BitVec 25} (hblock : off.toNat < 0x1000) (halign : off.toNat % 8 = 0) :
    accessInSpec off 8 = true := by simp [accessInSpec, hblock, halign]

theorem portTarget_csr {off : BitVec 25} (hblock : off.toNat < 0x1000) (n : Nat) :
    portTarget n off = .csr off.toNat := if_pos hblock

theorem hostStep_read {s : State} {off : BitVec 25} {n : Nat} (h : accessInSpec off n = true) :
    hostStep (.read off n) s = .next (s.hostRead (portTarget s.cfg.dmemSize off) n) := if_pos h

theorem hostStep_write {s : State} {off : BitVec 25} {n : Nat} {v : Word} (h : accessInSpec off n = true) :
    hostStep (.write off n v) s = .next (s.hostWrite (portTarget s.cfg.dmemSize off) n v) := if_pos h

/-- A read that is no hazard answers the port's value and changes nothing else (60_exceptions.md R313). -/
theorem hostRead_defined {s : State} {p : PortTarget} (h : s.busy = false ∨ exactWhileBusy p = true) (n : Nat) :
    s.hostRead p n = { s with hostData := s.portRead p n } := by
  refine if_neg ?_
  rcases h with h | h <;> simp [h]

/-- A defined read in the CSR block answers the register's value (10_state.md R36). -/
theorem step_csrRead {s : State} {off : BitVec 25} {rest : List Turn} (h : reads s off 8 rest)
    (hblock : off.toNat < 0x1000) (halign : off.toNat % 8 = 0)
    (hdef : s.busy = false ∨ exactWhileBusy (.csr off.toNat) = true) :
    step s = .next { s with hostData := s.csrRead off.toNat, turns := rest } := by
  rw [step_hostTurn h, hostStep_read (accessInSpec_csr hblock halign), portTarget_csr hblock,
    hostRead_defined (s := { s with turns := rest }) hdef]
  rfl

/-- A write in the CSR block goes to the register, busy or idle (10_state.md R36; 60_exceptions.md R313). -/
theorem step_csrWrite {s : State} {off : BitVec 25} {v : Word} {rest : List Turn} (h : writes s off 8 v rest)
    (hblock : off.toNat < 0x1000) (halign : off.toNat % 8 = 0) :
    step s = .next (({ s with turns := rest } : State).csrWrite off.toNat v) := by
  rw [step_hostTurn h, hostStep_write (accessInSpec_csr hblock halign), portTarget_csr hblock]
  rfl

/-- Settles O50: a flag is kept exactly where the written bit is 0. -/
theorem statusWriteOneClears : Obligations.StatusWriteOneClears := by
  intro s v rest h
  rw [step_csrWrite h (by decide) (by decide)]
  show Host.Outcome.next (({ s with turns := rest } : State).writeStatus v) = _
  have hclear : ∀ b c : Bool, (b && !c) = if c then false else b := by decide
  simp only [State.writeStatus, hclear]

/-- Settles O51: the three zeros appended to value[23:3] are the rounding down. -/
theorem pcWriteAlignsAndNeedsIdle : Obligations.PcWriteAlignsAndNeedsIdle := by
  intro s v rest h
  rw [step_csrWrite h (by decide) (by decide)]
  have hpc : v.extractLsb' 3 21 ++ 0#3 = BitVec.ofNat 24 (v.toNat % 2 ^ 24 / 8 * 8) := by
    apply BitVec.eq_of_toNat_eq
    rw [alignedPc_toNat, BitVec.toNat_ofNat]
    omega
  refine ⟨fun hb => ?_, fun hb => ?_⟩
  · show Host.Outcome.next (({ s with turns := rest } : State).writePc v) = _
    simp [State.writePc, hb, hpc]
  · show Host.Outcome.next (({ s with turns := rest } : State).writePc v) = _
    simp [State.writePc, hb]

theorem append_toNat {m n : Nat} (x : BitVec m) (y : BitVec n) : (x ++ y).toNat = x.toNat * 2 ^ n + y.toNat := by
  rw [BitVec.toNat_append, ← Nat.shiftLeft_add_eq_or_of_lt y.isLt, Nat.shiftLeft_eq]

theorem ctrlWord_toNat (s : State) : s.ctrlWord.toNat = s.ieDone.toNat * 2 + s.ieErr.toNat * 4 := by
  simp only [State.ctrlWord, append_toNat, BitVec.toNat_ofBool, BitVec.toNat_ofNat]
  omega

/-- STATUS as a sum of its fields by weight (10_state.md R33, 60_exceptions.md R306). -/
theorem statusWord_toNat (s : State) :
    s.statusWord.toNat = s.busy.toNat + s.done.toNat * 2 + s.err.toNat * 4
      + ((s.done && s.ieDone) || (s.err && s.ieErr)).toNat * 8
      + s.errcode.toNat * 2 ^ 8 + s.nw.toNat * 2 ^ 16 + s.phase.bits.toNat * 2 ^ 24 := by
  simp only [State.statusWord, append_toNat, BitVec.toNat_ofBool, BitVec.toNat_ofNat, State.irq]
  omega

/-- Settles O52: both are exact while BUSY = 1 too, and each is the sum of its fields by weight. -/
theorem ctrlAndStatusReadExactly : Obligations.CtrlAndStatusReadExactly := by
  intro s rest
  refine ⟨fun h => ⟨s.ctrlWord, ?_, ctrlWord_toNat s⟩, fun h => ⟨s.statusWord, ?_, ?_⟩⟩
  · exact step_csrRead h (by decide) (by decide) (.inr (by decide))
  · exact step_csrRead h (by decide) (by decide) (.inr (by decide))
  · rw [statusWord_toNat]
    cases s.phase <;> rfl

theorem leWords_getD (n i : Nat) (bs : List Byte) (h : i < n) :
    (leWords n bs).getD i 0 = leWord ((bs.drop (8 * i)).take 8) := by
  induction n generalizing i bs with
  | zero => omega
  | succ n ih =>
    cases i with
    | zero => simp [leWords]
    | succ i =>
      simp only [leWords, List.getD_cons_succ]
      rw [ih i (bs.drop 8) (by omega), List.drop_drop]
      congr 3
      omega

/-! ### The CSR map (10_state.md R36), one lemma per register file -/

theorem csrRead_chain (s : State) {i : Nat} (hi : i < 16) :
    s.csrRead (0x080 + 8 * i) = s.chain.toList.getD i 0 := by
  have hindex : (0x080 + 8 * i - 0x080) / 8 = i := by omega
  simp (disch := omega) only [State.csrRead, if_neg, if_pos, hindex, wordAt]

theorem csrRead_cfgstr (s : State) {i : Nat} (hi : i < 4) :
    s.csrRead (0x100 + 8 * i) = s.cfgstr.toList.getD i 0 := by
  have hindex : (0x100 + 8 * i - 0x100) / 8 = i := by omega
  simp (disch := omega) only [State.csrRead, if_neg, if_pos, hindex, wordAt]

theorem csrRead_cfgval (s : State) {i : Nat} (hi : i < 16) :
    s.csrRead (0x180 + 8 * i) = s.cfgval.toList.getD i 0 := by
  have hindex : (0x180 + 8 * i - 0x180) / 8 = i := by omega
  simp (disch := omega) only [State.csrRead, if_neg, if_pos, hindex, wordAt]

theorem csrRead_ibuf (s : State) {i : Nat} (hi : i < 16) :
    s.csrRead (0x200 + 8 * i) = (leWords 16 s.ibuf.toList).getD i 0 := by
  have hindex : (0x200 + 8 * i - 0x200) / 8 = i := by omega
  rw [leWords_getD 16 i _ hi]
  simp (disch := omega) only [State.csrRead, if_neg, if_pos, hindex, State.ibufWord]

/-- The reserved offsets, those of TFK and TFT among them, read 0 (10_state.md R30, R36). -/
theorem csrRead_reserved (s : State) {off : Nat} (h : 0x050 ≤ off ∧ off < 0x080 ∨ 0x120 ≤ off ∧ off < 0x180 ∨ 0x280 ≤ off) :
    s.csrRead off = 0 := by
  simp (disch := omega) only [State.csrRead, if_neg]

/-- A narrower register as the 64-bit word that holds its value. -/
theorem setWidth_eq_of_toNat {n : Nat} {d : Word} {x : BitVec n} (hn : n ≤ 64) (h : d.toNat = x.toNat) :
    x.setWidth 64 = d := by
  apply BitVec.eq_of_toNat_eq
  rw [BitVec.toNat_setWidth_of_le hn, h]

/-- Settles O53, offset by offset. -/
theorem idleCsrReadsFollowTheMap : Obligations.IdleCsrReadsFollowTheMap := by
  intro s rest off d hb hread hmap
  suffices hd : off.toNat < 0x1000 ∧ off.toNat % 8 = 0 ∧ s.csrRead off.toNat = d by
    obtain ⟨hblock, halign, rfl⟩ := hd
    exact step_csrRead hread hblock halign (.inl hb)
  rcases hmap with ⟨ho, hd⟩ | ⟨ho, hd⟩ | ⟨ho, rfl⟩ | ⟨ho, hd⟩ | ⟨ho, hd⟩ | ⟨ho, hd⟩ | ⟨ho, rfl⟩ | ⟨ho, rfl⟩ |
    ⟨i, hi, ho, rfl⟩ | ⟨i, hi, ho, rfl⟩ | ⟨i, hi, ho, rfl⟩ | ⟨i, hi, ho, rfl⟩ | ⟨halign, rfl, hres⟩
  · exact ⟨by omega, by omega, ho ▸ setWidth_eq_of_toNat (by decide) hd⟩
  · exact ⟨by omega, by omega, ho ▸ setWidth_eq_of_toNat (by decide) hd⟩
  · exact ⟨by omega, by omega, ho ▸ rfl⟩
  · exact ⟨by omega, by omega, ho ▸ setWidth_eq_of_toNat (by decide) hd⟩
  · exact ⟨by omega, by omega, ho ▸ setWidth_eq_of_toNat (by decide) hd⟩
  · exact ⟨by omega, by omega, ho ▸ BitVec.eq_of_toNat_eq (by rw [hd]; rfl)⟩
  · exact ⟨by omega, by omega, ho ▸ rfl⟩
  · exact ⟨by omega, by omega, ho ▸ rfl⟩
  · exact ⟨by omega, by omega, ho ▸ csrRead_chain s hi⟩
  · exact ⟨by omega, by omega, ho ▸ csrRead_cfgstr s hi⟩
  · exact ⟨by omega, by omega, ho ▸ csrRead_cfgval s hi⟩
  · exact ⟨by omega, by omega, ho ▸ csrRead_ibuf s hi⟩
  · exact ⟨by omega, halign, csrRead_reserved s (by omega)⟩

/-! ### Host reads and the raw-cipher registers -/

theorem portRead_withRaw (k : Vector Word 16) (w : Vector Word 2) (s : State) (p : PortTarget) (n : Nat) :
    (withRaw k w s).portRead p n = s.portRead p n := by cases p <;> rfl

theorem hostRead_hostData_withRaw (k : Vector Word 16) (w : Vector Word 2) (s : State) (p : PortTarget) (n : Nat) :
    ((withRaw k w s).hostRead p n).hostData = (s.hostRead p n).hostData := by
  unfold State.hostRead
  rw [apply_ite State.hostData, apply_ite State.hostData, portRead_withRaw]
  rfl

/-- Settles O59: the offset alone decides whether the access is taken, and its answer reads neither register. -/
theorem hostReadsNeverRevealTheRawRegisters : Obligations.HostReadsNeverRevealTheRawRegisters := by
  intro s t rest off n k w hread h
  have hread' : reads (withRaw k w s) off n rest := hread
  rw [step_hostTurn hread] at h
  show ∃ t', step (withRaw k w s) = .next t' ∧ _
  rw [step_hostTurn hread']
  cases hspec : accessInSpec off n with
  | false => simp [hostStep, hspec] at h
  | true =>
    rw [hostStep_read hspec] at h ⊢
    obtain rfl := Host.Outcome.next.inj h
    exact ⟨_, rfl, hostRead_hostData_withRaw k w { s with turns := rest } _ n⟩

end Sys2Proof.Proofs

/-! PROOFS. Memory and the host port (20_memory.md R60 to R75): every store lies inside DMEM, and what the host port answers, stores,
ignores and refuses at each offset. -/

namespace Sys2Proof.Proofs

open Sys2Proof.Machine Sys2Proof.Claims

/-! ### Every store lies inside DMEM -/

/-- A command that passes its range check addresses DMEM only (20_memory.md R66). -/
theorem inRange_of_checks {i : Instr} {s : State} (hc : firstError (checksOf i s) = none) {addr : Addr} {n : Nat}
    (hi : outOfRange s addr n ∈ checksOf i s) : addr.toNat + n ≤ s.cfg.dmemSize := by
  have hpassed := firstError_eq_none.1 hc _ hi
  simpa [outOfRange] using hpassed

theorem chainWords_length_le (s : State) : s.chainWords.length ≤ s.words := by simp [State.chainWords]

/-- The final subkey cuts the ciphertext to the state size, legal or not (40_threefish.md R119). -/
theorem threefish_length_le (nw : Nat) (key : List Word) (t0 t1 : Word) (p : List Word) :
    (threefish nw key t0 t1 p).length ≤ nw := by simp [threefish]

theorem digest_length_le (nw : Nat) (g : List Word) (ob : Nat) : (digest nw g ob).length ≤ ob :=
  List.length_take_le _ _

/-- A storing command whose checks pass makes one store, of no more bytes than its range check covers (20_memory.md R66,
R74). -/
theorem effectOf_dmem_store {i : Instr} (hi : mayStore i = true) {s : State} (hc : firstError (checksOf i s) = none) :
    ∃ a bs, (effectOf i s).dmem = s.dmem.writeBytes a bs ∧ a + bs.length ≤ s.cfg.dmemSize := by
  cases i with
  | ststate addr len =>
    refine ⟨addr.toNat, leBytes s.chainWords, rfl, ?_⟩
    have hrange : addr.toNat + s.blockBytes ≤ s.cfg.dmemSize := inRange_of_checks hc (by simp [checksOf])
    have hlen := chainWords_length_le s
    rw [leBytes_length]
    unfold State.blockBytes at hrange
    omega
  | sttweak addr len =>
    exact ⟨addr.toNat, leBytes [s.t0, s.t1], rfl, inRange_of_checks hc (by simp [checksOf])⟩
  | dofinal addr =>
    refine ⟨addr.toNat, _, State.finalize_dmem s addr.toNat, ?_⟩
    have hrange : addr.toNat + s.digestBytes ≤ s.cfg.dmemSize := inRange_of_checks hc (by simp [checksOf])
    have hlen := digest_length_le s.words s.finish.chainWords s.digestBytes
    omega
  | tfenc addr =>
    refine ⟨addr.toNat, leBytes (s.rawCiphertext addr.toNat), rfl, ?_⟩
    have hrange : addr.toNat + s.blockBytes ≤ s.cfg.dmemSize := inRange_of_checks hc (by simp [checksOf])
    have hlen : (s.rawCiphertext addr.toNat).length ≤ s.words := threefish_length_le ..
    rw [leBytes_length]
    unfold State.blockBytes at hrange
    omega
  | _ => cases hi

/-! ### DMEM stays canonical and inside its size -/

theorem dmemInv_congr {s t : State} (h : DmemInv s) (hcfg : t.cfg = s.cfg) (hdmem : t.dmem = s.dmem) : DmemInv t where
  cfgValid := hcfg ▸ h.cfgValid
  canonical := hdmem ▸ h.canonical
  inRange := by
    rw [hcfg, hdmem]
    exact h.inRange

/-- A store inside DMEM keeps it legal, whatever else the step does. -/
theorem store_keepsDmem {s t : State} (h : DmemInv s) (hcfg : t.cfg = s.cfg) {a : Nat} {bs : List Byte}
    (hdmem : t.dmem = s.dmem.writeBytes a bs) (hrange : a + bs.length ≤ s.cfg.dmemSize) : DmemInv t where
  cfgValid := hcfg ▸ h.cfgValid
  canonical := hdmem ▸ Memory.wf_writeBytes h.canonical a bs
  inRange c hc := by
    rw [hdmem] at hc
    rw [hcfg]
    rcases Memory.mem_writeBytes hc with hold | ⟨-, hnew⟩
    · exact h.inRange c hold
    · omega

theorem exec_keepsDmem {i : Instr} {s t : State} (h : DmemInv s) (he : exec i s = .next t) : DmemInv t := by
  rcases exec_cases he with ⟨e, -, rfl⟩ | ⟨hc, rfl⟩
  · exact dmemInv_congr h rfl rfl
  · have hcfg := (effectOf_sameOutside i s).cfg
    cases hi : mayStore i with
    | false => exact dmemInv_congr h hcfg (effectOf_dmem hi s)
    | true =>
      obtain ⟨a, bs, hdmem, hrange⟩ := effectOf_dmem_store hi hc
      exact store_keepsDmem h hcfg hdmem hrange

/-- No CSR write reaches DMEM or the parameters, SRST included (70_reset_and_hazards.md R341). -/
theorem csrWrite_keepsDmem {s : State} (h : DmemInv s) (off : Nat) (v : Word) : DmemInv (s.csrWrite off v) := by
  simp only [State.csrWrite, State.writeCtrl, State.writePc]
  split_ifs
  all_goals exact dmemInv_congr h rfl rfl

theorem hostRead_keepsDmem {s : State} (h : DmemInv s) (p : PortTarget) (n : Nat) : DmemInv (s.hostRead p n) := by
  unfold State.hostRead
  split <;> exact dmemInv_congr h rfl rfl

/-! ### Which accesses the host port takes, and what an offset names -/

theorem accessInSpec_csr_iff {off : BitVec 25} (hblock : off.toNat < 0x1000) (n : Nat) :
    accessInSpec off n = true ↔ n = 8 ∧ off.toNat % 8 = 0 := by simp [accessInSpec, hblock]

/-- From the CSR block on the widths of the DMEM window are taken, at unmapped offsets too (20_memory.md R68; log 10). -/
theorem accessInSpec_beyondCsr_iff {off : BitVec 25} (hbeyond : 0x1000 ≤ off.toNat) (n : Nat) :
    accessInSpec off n = true ↔ n ∈ [1, 2, 4, 8] ∧ off.toNat % n = 0 := by
  simp [accessInSpec, Nat.not_lt.mpr hbeyond]

theorem portTarget_dmem_iff {off : BitVec 25} {size a : Nat} :
    portTarget size off = .dmem a ↔ off.toNat = 2 ^ 24 + a ∧ a < size := by
  unfold portTarget
  split_ifs with hblock hbelow hin
  · exact ⟨False.elim, by omega⟩
  · exact ⟨False.elim, by omega⟩
  · rw [PortTarget.dmem.injEq]
    omega
  · exact ⟨False.elim, by omega⟩

theorem portTarget_unmapped {off : BitVec 25} {size : Nat} (hbeyond : 0x1000 ≤ off.toNat)
    (hout : off.toNat < 2 ^ 24 ∨ 2 ^ 24 + size ≤ off.toNat) : portTarget size off = .unmapped := by
  rcases hout with hbelow | hpast
  · simp (disch := omega) only [portTarget, if_neg, if_pos]
  · simp (disch := omega) only [portTarget, if_neg]

/-- The window starts at a multiple of every width, so an access is aligned at its offset as at its address. -/
theorem window_aligned_iff {a n : Nat} (hn : n ∈ [1, 2, 4, 8]) : (2 ^ 24 + a) % n = 0 ↔ a % n = 0 := by
  simp only [List.mem_cons, List.not_mem_nil, or_false] at hn
  rcases hn with rfl | rfl | rfl | rfl <;> omega

/-- DMEM_SIZE is a multiple of every width, so an aligned access that starts in DMEM ends there (20_memory.md R61, R68). -/
theorem window_access_inRange {a n size : Nat} (hn : n ∈ [1, 2, 4, 8]) (halign : a % n = 0) (hsize : size % 8 = 0)
    (ha : a < size) : a + n ≤ size := by
  simp only [List.mem_cons, List.not_mem_nil, or_false] at hn
  rcases hn with rfl | rfl | rfl | rfl <;> omega

theorem hostStep_read_refused {s : State} {off : BitVec 25} {n : Nat} (h : accessInSpec off n = false) :
    hostStep (.read off n) s = .refused .hostAccessOutsideSpec := by simp [hostStep, h]

theorem hostStep_write_refused {s : State} {off : BitVec 25} {n : Nat} {v : Word} (h : accessInSpec off n = false) :
    hostStep (.write off n v) s = .refused .hostAccessOutsideSpec := by simp [hostStep, h]

/-! ### Every step keeps DMEM legal -/

/-- A host write stores as many bytes as it is wide, busy or idle (20_memory.md R68, 70_reset_and_hazards.md R344). -/
theorem hostWrite_dmem_store (s : State) (a n : Nat) (v : Word) :
    ∃ bs, bs.length = n ∧ (s.hostWrite (.dmem a) n v).dmem = s.dmem.writeBytes a bs := by
  simp only [State.hostWrite]
  split
  · exact ⟨s.hazardBytes n, by simp [State.hazardBytes], rfl⟩
  · exact ⟨wordBytes n v, wordBytes_length n v, rfl⟩

theorem hostWrite_dmem_cfg (s : State) (a n : Nat) (v : Word) : (s.hostWrite (.dmem a) n v).cfg = s.cfg := by
  simp only [State.hostWrite]
  split <;> rfl

/-- A write that the port takes lies inside DMEM where it reaches DMEM at all. -/
theorem hostWrite_keepsDmem {s : State} (h : DmemInv s) {off : BitVec 25} {n : Nat}
    (hspec : accessInSpec off n = true) (v : Word) :
    DmemInv (s.hostWrite (portTarget s.cfg.dmemSize off) n v) := by
  cases hp : portTarget s.cfg.dmemSize off with
  | csr r => exact csrWrite_keepsDmem h r v
  | dmem a =>
    obtain ⟨hoff, ha⟩ := portTarget_dmem_iff.1 hp
    obtain ⟨hn, halign⟩ := (accessInSpec_beyondCsr_iff (by omega) n).1 hspec
    obtain ⟨bs, hlen, hdmem⟩ := hostWrite_dmem_store s a n v
    have hrange : a + n ≤ s.cfg.dmemSize :=
      window_access_inRange hn ((window_aligned_iff hn).1 (hoff ▸ halign)) h.cfgValid.1 ha
    exact store_keepsDmem h (hostWrite_dmem_cfg s a n v) hdmem (hlen ▸ hrange)
  | unmapped => exact h

theorem hostStep_keepsDmem {a : HostAccess} {s t : State} (h : DmemInv s) (he : hostStep a s = .next t) :
    DmemInv t := by
  cases a with
  | read off n =>
    cases hspec : accessInSpec off n with
    | false => rw [hostStep_read_refused hspec] at he; cases he
    | true =>
      rw [hostStep_read hspec] at he
      exact Host.Outcome.next.inj he ▸ hostRead_keepsDmem h _ n
  | write off n v =>
    cases hspec : accessInSpec off n with
    | false => rw [hostStep_write_refused hspec] at he; cases he
    | true =>
      rw [hostStep_write hspec] at he
      exact Host.Outcome.next.inj he ▸ hostWrite_keepsDmem h hspec v

/-- What the sequencer's step can do: nothing, the error entry, or a command (46_sequencer.md R290). `engineStep_effect` says
it within `StepEffect`, whose host writes go anywhere; the range of DMEM needs the sequencer's own three cases. -/
theorem engineStep_cases {s t : State} (h : engineStep s = .next t) :
    t = s ∨ (∃ e w, t = s.takeError e w) ∨ ∃ i, exec i s = .next t := by
  unfold engineStep at h
  split at h
  · split at h
    · exact .inr (.inl ⟨_, _, (Host.Outcome.next.inj h).symm⟩)
    · split at h
      · exact .inr (.inl ⟨_, _, (Host.Outcome.next.inj h).symm⟩)
      · exact .inr (.inr ⟨_, h⟩)
  · exact .inl (Host.Outcome.next.inj h).symm

theorem engineStep_keepsDmem {s t : State} (h : DmemInv s) (he : engineStep s = .next t) : DmemInv t := by
  rcases engineStep_cases he with rfl | ⟨e, w, rfl⟩ | ⟨i, hi⟩
  · exact h
  · exact dmemInv_congr h rfl rfl
  · exact exec_keepsDmem h hi

/-- Settles O43, turn by turn: the range checks bound what a command stores, the access rules what the host stores. -/
theorem stepKeepsDmemLegal : Obligations.StepKeepsDmemLegal := by
  intro s t hs h
  cases hturns : s.turns with
  | nil => exact engineStep_keepsDmem hs (step_noTurn hturns ▸ h)
  | cons turn rest =>
    have hused : DmemInv { s with turns := rest } := dmemInv_congr hs rfl rfl
    cases turn with
    | engine => exact engineStep_keepsDmem hused (step_engineTurn hturns ▸ h)
    | host a => exact hostStep_keepsDmem hused (step_hostTurn hturns ▸ h)
    | hardwareReset =>
      rw [step_resetTurn hturns] at h
      obtain rfl := Host.Outcome.next.inj h
      exact dmemInv_congr hused (State.resetRegisters_cfg _) (State.resetRegisters_dmem _)

/-! ### The host port by offset -/

/-- A defined read in spec answers what its offset names and changes nothing else (20_memory.md R67, R70). -/
theorem step_hostRead {s : State} {off : BitVec 25} {n : Nat} {rest : List Turn} (h : reads s off n rest)
    (hspec : accessInSpec off n = true) (hb : s.busy = false) :
    step s = .next { s with hostData := s.portRead (portTarget s.cfg.dmemSize off) n, turns := rest } := by
  rw [step_hostTurn h, hostStep_read hspec, hostRead_defined (s := { s with turns := rest }) (.inl hb)]
  cases portTarget s.cfg.dmemSize off <;> rfl

/-- A write in spec goes where its offset names (20_memory.md R67). -/
theorem step_hostWrite {s : State} {off : BitVec 25} {n : Nat} {v : Word} {rest : List Turn}
    (h : writes s off n v rest) (hspec : accessInSpec off n = true) :
    step s = .next (({ s with turns := rest } : State).hostWrite (portTarget s.cfg.dmemSize off) n v) := by
  rw [step_hostTurn h, hostStep_write hspec]

/-- An access that the port does not take is refused, reads and writes alike (20_memory.md R68). -/
theorem step_refused {s : State} {off : BitVec 25} {n : Nat} {v : Word} {rest : List Turn}
    (hspec : accessInSpec off n = false) :
    (reads s off n rest → step s = .refused .hostAccessOutsideSpec) ∧
      (writes s off n v rest → step s = .refused .hostAccessOutsideSpec) := by
  refine ⟨fun h => ?_, fun h => ?_⟩
  · rw [step_hostTurn h, hostStep_read_refused hspec]
  · rw [step_hostTurn h, hostStep_write_refused hspec]

/-- Byte `j` of a word by division (20_memory.md R63). -/
theorem wordByte_eq_ofNat (v : Word) (j : Nat) : wordByte v j = BitVec.ofNat 8 (v.toNat / 2 ^ (8 * j)) := by
  apply BitVec.eq_of_toNat_eq
  simp [wordByte, Nat.shiftRight_eq_div_pow]

theorem wordBytes_eq_ofNat (n : Nat) (v : Word) :
    wordBytes n v = (List.range n).map fun j => BitVec.ofNat 8 (v.toNat / 2 ^ (8 * j)) :=
  List.map_congr_left fun j _ => wordByte_eq_ofNat v j

/-- A word of up to eight bytes of DMEM is the sum of its bytes by weight (20_memory.md R63). -/
theorem leWord_memRead_toNat (s : State) (a : Nat) {n : Nat} (hn : n ≤ 8) :
    (leWord (s.memRead a n)).toNat = ((List.range n).map fun j => (s.dmem.read (a + j)).toNat * 2 ^ (8 * j)).sum := by
  rw [(leWord_toNat _ (by simpa using hn)).1, State.memRead_length]
  congr 1
  refine List.map_congr_left fun j hj => ?_
  rw [State.memRead, Memory.readBytes_getD _ _ _ _ (List.mem_range.1 hj)]

theorem storedAt_writeBytes {m : Memory} (h : m.wf) (a : Nat) (bs : List Byte) :
    storedAt m (m.writeBytes a bs) a bs := by
  refine ⟨fun j hj => ?_, fun x hx => ?_⟩
  · rw [Memory.read_writeBytes h, if_pos (by omega), Nat.add_sub_cancel_left]
  · rw [Memory.read_writeBytes h, if_neg (by omega)]

/-- Settles O54: the port takes the access, and the bytes of a word are its quotients by 2^(8j). -/
theorem idleDmemWindowIsLittleEndian : Obligations.IdleDmemWindowIsLittleEndian := by
  intro s rest off a n v hb hs hoff ha hn halign
  have hspec : accessInSpec off n = true :=
    (accessInSpec_beyondCsr_iff (by omega) n).2 ⟨hn, hoff ▸ (window_aligned_iff hn).2 halign⟩
  have htarget : portTarget s.cfg.dmemSize off = .dmem a := portTarget_dmem_iff.2 ⟨hoff, ha⟩
  have hwidth : n ≤ 8 := by
    simp only [List.mem_cons, List.not_mem_nil, or_false] at hn
    omega
  refine ⟨fun h => ⟨leWord (s.memRead a n), ?_, leWord_memRead_toNat s a hwidth⟩,
    fun h => ⟨s.dmem.writeBytes a (wordBytes n v), ?_, ?_⟩⟩
  · rw [step_hostRead h hspec hb, htarget]
    rfl
  · rw [step_hostWrite h hspec, htarget]
    simp [State.hostWrite, hb, State.memWrite]
  · rw [← wordBytes_eq_ofNat]
    exact storedAt_writeBytes hs.canonical a _

/-- From ERRPC on the CSR block ignores writes (10_state.md R36). -/
theorem csrWrite_readOnly (s : State) {off : Nat} (h : 0x18 ≤ off) (v : Word) : s.csrWrite off v = s := by
  simp (disch := omega) only [State.csrWrite, if_neg]

/-- Settles O55: an unmapped offset names nothing, and a read-only register ignores what reaches it. -/
theorem otherOffsetsIgnoreWrites : Obligations.OtherOffsetsIgnoreWrites := by
  intro s rest off n v halign
  refine ⟨fun hn hbeyond hout => ?_, fun hn hreadOnly hblock h => ?_⟩
  · have hspec := (accessInSpec_beyondCsr_iff hbeyond n).2 ⟨hn, halign⟩
    have htarget := portTarget_unmapped hbeyond hout
    refine ⟨fun hb h => ?_, fun h => ?_⟩
    · rw [step_hostRead h hspec hb, htarget]
      rfl
    · rw [step_hostWrite h hspec, htarget]
      rfl
  · subst hn
    rw [step_csrWrite h hblock halign, csrWrite_readOnly _ hreadOnly]

/-- Settles O56: what the port takes is decided by the block alone, so each clause is one of its two access rules. -/
theorem outOfSpecHostAccessIsRefused : Obligations.OutOfSpecHostAccessIsRefused := by
  intro s rest off n v
  have hbeyond : 0x1000 ≤ off.toNat → n ∉ [1, 2, 4, 8] ∨ off.toNat % n ≠ 0 → accessInSpec off n = false :=
    fun hoff hbad => by
      rw [← Bool.not_eq_true, accessInSpec_beyondCsr_iff hoff, not_and_or]
      exact hbad
  refine ⟨fun hblock hbad => step_refused ?_, fun hwindow _ hbad => step_refused (hbeyond (by omega) hbad),
    fun hoff _ hbad => step_refused (hbeyond hoff hbad)⟩
  rw [← Bool.not_eq_true, accessInSpec_csr_iff hblock, not_and_or]
  exact hbad

/-- A host read writes the answer and the count of free values only (20_memory.md R70). -/
theorem hostRead_frame (s : State) (p : PortTarget) (n : Nat) :
    s.hostRead p n = { s with hostData := (s.hostRead p n).hostData, freeCtr := (s.hostRead p n).freeCtr } := by
  unfold State.hostRead
  split <;> rfl

/-- Settles O57: a read that answers is one that the port takes, and it has the frame of every host read. -/
theorem hostReadsHaveNoSideEffects : Obligations.HostReadsHaveNoSideEffects := by
  intro s t rest off n hread h
  rw [step_hostTurn hread] at h
  cases hspec : accessInSpec off n with
  | false => rw [hostStep_read_refused hspec] at h; cases h
  | true =>
    rw [hostStep_read hspec] at h
    obtain rfl := Host.Outcome.next.inj h
    exact hostRead_frame { s with turns := rest } _ n

end Sys2Proof.Proofs

/-! PROOFS. The command encoding (30_encoding.md R80 to R90): which words decode, that decoding and encoding undo each other,
and what the sequencer does with every word it fetches. -/

namespace Sys2Proof.Proofs

open Sys2Proof.Machine Sys2Proof.Claims

/-! ### The fields of a packed word -/

@[simp] theorem fieldOp_packI (op : Opcode) (a : BitVec 8) (imm : BitVec 32) : fieldOp (packI op a imm) = op.code :=
  (packI_fields op a imm).1

@[simp] theorem fieldA_packI (op : Opcode) (a : BitVec 8) (imm : BitVec 32) : fieldA (packI op a imm) = a :=
  (packI_fields op a imm).2.1

@[simp] theorem fieldZ_packI (op : Opcode) (a : BitVec 8) (imm : BitVec 32) : fieldZ (packI op a imm) = 0 :=
  (packI_fields op a imm).2.2.1

@[simp] theorem fieldImm_packI (op : Opcode) (a : BitVec 8) (imm : BitVec 32) : fieldImm (packI op a imm) = imm :=
  (packI_fields op a imm).2.2.2

@[simp] theorem fieldOp_packC (op : Opcode) (addr len : Addr) : fieldOp (packC op addr len) = op.code :=
  (packC_fields op addr len).1

@[simp] theorem fieldA_packC (op : Opcode) (addr len : Addr) : fieldA (packC op addr len) = 0 :=
  (packC_fields op addr len).2.1

@[simp] theorem fieldAddr_packC (op : Opcode) (addr len : Addr) : fieldAddr (packC op addr len) = addr :=
  (packC_fields op addr len).2.2.1

@[simp] theorem fieldLen_packC (op : Opcode) (addr len : Addr) : fieldLen (packC op addr len) = len :=
  (packC_fields op addr len).2.2.2

/-- The fields of format I cover the word (30_encoding.md R82). -/
theorem packI_of_fields {op : Opcode} {w : Word} (hop : op.code = fieldOp w) (hz : fieldZ w = 0) :
    packI op (fieldA w) (fieldImm w) = w := by
  have hcover : fieldImm w ++ fieldZ w ++ fieldA w ++ fieldOp w = w := by
    refine BitVec.eq_of_getLsbD_eq fun i hi => ?_
    simp only [fieldOp, fieldA, fieldZ, fieldImm, BitVec.getLsbD_extractLsb', BitVec.getLsbD_append]
    grind
  rw [hz] at hcover
  rw [packI, hop]
  exact hcover

/-- The fields of format C cover the word (30_encoding.md R81). -/
theorem packC_of_fields {op : Opcode} {w : Word} (hop : op.code = fieldOp w) (ha : fieldA w = 0) :
    packC op (fieldAddr w) (fieldLen w) = w := by
  have hcover : fieldLen w ++ fieldAddr w ++ fieldA w ++ fieldOp w = w := by
    refine BitVec.eq_of_getLsbD_eq fun i hi => ?_
    simp only [fieldOp, fieldA, fieldAddr, fieldLen, BitVec.getLsbD_extractLsb', BitVec.getLsbD_append]
    grind
  rw [ha] at hcover
  rw [packC, hop]
  exact hcover

/-! ### Which words decode -/

/-- The opcode map is one to one (30_encoding.md R83). -/
theorem opcodeOf_eq_some_iff {b : BitVec 8} {op : Opcode} : opcodeOf b = some op ↔ op.code = b :=
  ⟨code_of_opcodeOf, fun h => h ▸ opcodeOf_code op⟩

/-- A word decodes when its opcode is in the map and both checks of 30_encoding.md R87 pass. -/
theorem decode_eq_ok_iff {w : Word} {i : Instr} :
    decode w = .ok i ↔ ∃ op : Opcode,
      op.code = fieldOp w ∧ reservedFieldSet op w = false ∧ illegalValue op w = false ∧ assemble op w = i := by
  simp only [← opcodeOf_eq_some_iff, decode]
  cases opcodeOf (fieldOp w) with
  | none => simp
  | some op =>
    cases hr : reservedFieldSet op w <;> cases hi : illegalValue op w <;> simp [hr, hi]

/-- Eight bytes decode as the word that they store (30_encoding.md R80). -/
theorem decodeBytes_eight {bs : List Byte} (h : bs.length = 8) : decodeBytes bs = decode (leWord bs) := by
  rw [decodeBytes, if_neg (by omega), List.take_of_length_le h.le]

/-! ### Decoding an encoded command -/

/-- The opcode of a command (30_encoding.md R83). -/
def commandOpcode : Instr → Opcode
  | .halt => .halt
  | .nop => .nop
  | .create .. => .create
  | .setschema .. => .setschema
  | .setver .. => .setver
  | .setleaf .. => .setleaf
  | .setfan .. => .setfan
  | .setheight .. => .setheight
  | .gencfg .. => .gencfg
  | .mackey .. => .mackey
  | .init .. => .init
  | .ldstate .. => .ldstate
  | .ststate .. => .ststate
  | .update .. => .update
  | .updbits .. => .updbits
  | .ubifin => .ubifin
  | .dofinal .. => .dofinal
  | .twstart .. => .twstart
  | .twflag .. => .twflag
  | .twlevel .. => .twlevel
  | .twadd .. => .twadd
  | .sttweak .. => .sttweak
  | .tfkey .. => .tfkey
  | .tftweak .. => .tftweak
  | .tfenc .. => .tfenc

theorem fieldOp_encode (i : Instr) : fieldOp (encode i) = (commandOpcode i).code := by
  cases i <;> simp only [encode, commandOpcode, fieldOp_packI, fieldOp_packC]

/-- No encoding sets a reserved field (30_encoding.md R81, R82). -/
theorem reservedFieldSet_encode (i : Instr) : reservedFieldSet (commandOpcode i) (encode i) = false := by
  cases i <;> simp [encode, commandOpcode, reservedFieldSet, Opcode.format]

/-- An encoding holds no value that 30_encoding.md R85 calls ILLEGAL exactly when the command is well formed. -/
theorem illegalValue_encode_iff (i : Instr) :
    illegalValue (commandOpcode i) (encode i) = false ↔ i.wellFormed = true := by
  cases i <;> simp [encode, commandOpcode, illegalValue, Instr.wellFormed]

/-- Every operand is read back from the field it was put in (30_encoding.md R84, R85). -/
theorem assemble_encode (i : Instr) : assemble (commandOpcode i) (encode i) = i := by
  cases i <;> simp only [encode, commandOpcode, assemble, fieldA_packI, fieldImm_packI, fieldAddr_packC, fieldLen_packC]

/-- Settles O1: the encoding has its command's opcode, passes both decode checks and holds its operands. -/
theorem decodeOfEncodeIsTheCommand : Obligations.DecodeOfEncodeIsTheCommand := by
  intro i hwf
  exact decode_eq_ok_iff.2 ⟨commandOpcode i, (fieldOp_encode i).symm, reservedFieldSet_encode i,
    (illegalValue_encode_iff i).2 hwf, assemble_encode i⟩

/-! ### Encoding a decoded command -/

theorem commandOpcode_assemble (op : Opcode) (w : Word) : commandOpcode (assemble op w) = op := by
  cases op <;> rfl

/-- In a legal format I word a field A or IMM that no operand holds is 0 (30_encoding.md R85). -/
theorem encode_assemble_formatI {op : Opcode} {w : Word} (hf : op.format = .i) (hi : illegalValue op w = false) :
    encode (assemble op w) = packI op (fieldA w) (fieldImm w) := by
  cases op <;> simp_all [Opcode.format, illegalValue, assemble, encode]

/-- In a legal format C word a field LEN that no operand holds is 0 (30_encoding.md R85). -/
theorem encode_assemble_formatC {op : Opcode} {w : Word} (hf : op.format = .c) (hi : illegalValue op w = false) :
    encode (assemble op w) = packC op (fieldAddr w) (fieldLen w) := by
  cases op <;> simp_all [Opcode.format, illegalValue, assemble, encode]

/-- A legal word is the encoding of its command: its fields cover it, and the reserved one is 0. -/
theorem encode_assemble {op : Opcode} {w : Word} (hop : op.code = fieldOp w) (hr : reservedFieldSet op w = false)
    (hi : illegalValue op w = false) : encode (assemble op w) = w := by
  cases hf : op.format with
  | i =>
    have hz : fieldZ w = 0 := by simpa [reservedFieldSet, hf] using hr
    rw [encode_assemble_formatI hf hi, packI_of_fields hop hz]
  | c =>
    have ha : fieldA w = 0 := by simpa [reservedFieldSet, hf] using hr
    rw [encode_assemble_formatC hf hi, packC_of_fields hop ha]

/-- Settles O2: the decode checks leave no bit of the word free, and the value check is well-formedness. -/
theorem encodeOfDecodeIsTheWord : Obligations.EncodeOfDecodeIsTheWord := by
  intro w i h
  obtain ⟨op, hop, hr, hi, rfl⟩ := decode_eq_ok_iff.1 h
  have hword := encode_assemble hop hr hi
  refine ⟨hword, (illegalValue_encode_iff _).1 ?_⟩
  rw [commandOpcode_assemble, hword, hi]

/-! ### The published words -/

/-- A command's eight bytes in DMEM decode to it (30_encoding.md R80). -/
theorem decodeBytes_of_encode {i : Instr} {bs : List Byte} (hwf : i.wellFormed = true) (hbs : bs = wordBytes 8 (encode i)) :
    decodeBytes bs = .ok i := by
  rw [hbs, decodeBytes_eight (wordBytes_length 8 _), leWord_wordBytes]
  exact decodeOfEncodeIsTheCommand i hwf

/-- Settles O3: each word is the little-endian encoding of its command. -/
theorem programWordsDecodeToTheirCommands : Obligations.ProgramWordsDecodeToTheirCommands :=
  ⟨decodeBytes_of_encode rfl (by decide), decodeBytes_of_encode rfl (by decide), decodeBytes_of_encode rfl (by decide),
    decodeBytes_of_encode rfl (by decide), decodeBytes_of_encode rfl (by decide), decodeBytes_of_encode rfl (by decide),
    decodeBytes_of_encode rfl (by decide)⟩

/-! ### The decode checks over the numbers of the fields -/

/-- The fields of a word by division (30_encoding.md R81, R82). -/
theorem legalWord_eq_legalFields (w : Word) :
    legalWord w = legalFields (fieldOp w).toNat (fieldA w).toNat (fieldZ w).toNat (fieldImm w).toNat (fieldLen w).toNat := by
  have hw := w.isLt
  have himm : w.toNat / 2 ^ 32 % 2 ^ 32 = w.toNat / 2 ^ 32 := by omega
  have hlen : w.toNat / 2 ^ 40 % 2 ^ 24 = w.toNat / 2 ^ 40 := by omega
  simp only [legalWord, fieldOp, fieldA, fieldZ, fieldImm, fieldLen, BitVec.extractLsb'_toNat, Nat.shiftRight_eq_div_pow,
    himm, hlen, Nat.pow_zero, Nat.div_one]

/-- Under an opcode of the map the fields are legal exactly when both decode checks pass (30_encoding.md R85, R87). -/
theorem legalFields_code_iff (op : Opcode) (w : Word) :
    legalFields op.code.toNat (fieldA w).toNat (fieldZ w).toNat (fieldImm w).toNat (fieldLen w).toNat = true ↔
      reservedFieldSet op w = false ∧ illegalValue op w = false := by
  cases op <;>
    simp [legalFields, Opcode.code, reservedFieldSet, Opcode.format, illegalValue, ← BitVec.toNat_inj, and_assoc,
      and_comm, and_left_comm]

/-- No fields make a reserved opcode legal (30_encoding.md R86). -/
theorem code_of_legalFields {b : BitVec 8} {a z imm len : Nat} (h : legalFields b.toNat a z imm len = true) :
    ∃ op : Opcode, op.code = b := by
  have hmem : b.toNat ∈ opcodeMap.map (·.code.toNat) := by
    by_contra hout
    simp only [opcodeMap, List.map_cons, List.map_nil, List.mem_cons, not_or, Opcode.code, BitVec.reduceToNat] at hout
    simp [legalFields, hout] at h
  obtain ⟨op, -, hop⟩ := List.mem_map.1 hmem
  exact ⟨op, BitVec.eq_of_toNat_eq hop⟩

/-- The legal words of 30_encoding.md R83, R85 and R87 are those that decode. -/
theorem legalWord_iff_decode {w : Word} : legalWord w = true ↔ ∃ i, decode w = .ok i := by
  rw [legalWord_eq_legalFields]
  constructor
  · intro h
    obtain ⟨op, hop⟩ := code_of_legalFields h
    rw [← hop, legalFields_code_iff] at h
    obtain ⟨hr, hi⟩ := h
    exact ⟨assemble op w, decode_eq_ok_iff.2 ⟨op, hop, hr, hi, rfl⟩⟩
  · rintro ⟨i, h⟩
    obtain ⟨op, hop, hr, hi, -⟩ := decode_eq_ok_iff.1 h
    rw [← hop]
    exact (legalFields_code_iff op w).2 ⟨hr, hi⟩

/-! ### The fetch -/

/-- The word that the sequencer fetches is the little-endian word at its address (20_memory.md R63). -/
theorem leWord_memRead (s : State) (a : Nat) : leWord (s.memRead a 8) = wordAtAddr s.dmem a := by
  apply BitVec.eq_of_toNat_eq
  rw [wordAtAddr, ← leWord_memRead_toNat s a (by omega), BitVec.ofNat_toNat, BitVec.setWidth_eq]

theorem decodeBytes_memRead (s : State) (a : Nat) : decodeBytes (s.memRead a 8) = decode (wordAtAddr s.dmem a) := by
  rw [decodeBytes_eight (s.memRead_length a 8), leWord_memRead]

/-- A turn of the sequencer, scheduled or not, is used up and the sequencer moves. -/
theorem step_sequencersTurn {s : State} (h : sequencersTurn s) : step s = engineStep (turnUsed s) := by
  rcases h with h | ⟨rest, h⟩
  · rw [step_noTurn h]
    cases s
    subst h
    rfl
  · rw [step_engineTurn h, turnUsed, h, List.tail_cons]

/-- Settles O4: the legal words are those that decode, and the sequencer's step asks only that. -/
theorem everyFetchedWordRunsOrIsIllegal : Obligations.EveryFetchedWordRunsOrIsIllegal := by
  intro s hturn hb hpc
  have hdecode := decodeBytes_memRead (turnUsed s) s.pc.toNat
  rw [step_sequencersTurn hturn]
  refine ⟨fun hillegal => ?_, fun hlegal => ?_⟩
  · cases hd : decode (wordAtAddr s.dmem s.pc.toNat) with
    | ok i => exact absurd (legalWord_iff_decode.2 ⟨i, hd⟩) (by simp [hillegal])
    | error e =>
      rw [engineStep_illegal (s := turnUsed s) hb hpc (hdecode.trans hd), leWord_memRead]
      rfl
  · obtain ⟨i, hd⟩ := legalWord_iff_decode.1 hlegal
    exact ⟨i, hd, engineStep_runs hb hpc (hdecode.trans hd)⟩

end Sys2Proof.Proofs

/-! PROOFS. The raw cipher (40_threefish.md R110 to R127): the published answers, and what TFKEY, TFTWEAK and TFENC
leave. -/

namespace Sys2Proof.Proofs

open Sys2Proof.Machine Sys2Proof.Claims

/-! ### Words in DMEM (20_memory.md R63) -/

/-- A stretch of a longer read is the read of that stretch. -/
theorem memRead_drop_take (s : State) (a : Nat) {i k n : Nat} (h : i + k ≤ n) :
    ((s.memRead a n).drop i).take k = s.memRead (a + i) k := by
  refine List.ext_getElem (by simp; omega) fun j _ _ => ?_
  simp [State.memRead, Memory.readBytes, Nat.add_assoc]

theorem memWords_eq_wordsAtAddr (s : State) (a n : Nat) : s.memWords a n = wordsAtAddr s.dmem a n := by
  refine List.ext_getElem (by simp [State.memWords, wordsAtAddr]) fun i hi _ => ?_
  have hlt : i < n := by simpa [State.memWords] using hi
  calc (s.memWords a n)[i]
      = (leWords n (s.memRead a (8 * n))).getD i 0 := (List.getD_eq_getElem ..).symm
    _ = leWord (s.memRead (a + 8 * i) 8) := by
        rw [leWords_getD n i _ hlt, memRead_drop_take s a (by omega)]
    _ = (wordsAtAddr s.dmem a n)[i] := by simp [leWord_memRead, wordsAtAddr]

theorem leBytes_eq_bytesOfWords (ws : List Word) : leBytes ws = bytesOfWords ws := by
  induction ws with
  | nil => rfl
  | cons w ws ih =>
    have hfirst : wordBytes 8 w =
        (List.range 8).map fun n => BitVec.ofNat 8 (((w :: ws).getD (n / 8) 0).toNat / 2 ^ (8 * (n % 8))) := by
      rw [wordBytes_eq_ofNat]
      refine List.map_congr_left fun j hj => ?_
      have hlt : j < 8 := List.mem_range.1 hj
      rw [Nat.div_eq_of_lt hlt, Nat.mod_eq_of_lt hlt, List.getD_cons_zero]
    calc leBytes (w :: ws)
        = wordBytes 8 w ++ bytesOfWords ws := by rw [← ih]; rfl
      _ = bytesOfWords (w :: ws) := by
        rw [hfirst, bytesOfWords, bytesOfWords, List.length_cons, Nat.mul_succ, Nat.add_comm, List.range_add,
          List.map_append, List.map_map]
        simp [Function.comp_def, Nat.add_div_left]

/-! ### A command that passes its checks -/

/-- The checks of a command with an operand range, in a created engine (20_memory.md R66). -/
theorem rangeChecks_pass {s : State} {addr : Addr} {n : Nat} (hphase : s.phase ≠ .uninit)
    (hrange : addr.toNat + n ≤ s.cfg.dmemSize) : firstError [notCreated s, outOfRange s addr n] = none := by
  simp [notCreated, outOfRange, hphase, hrange]

/-- The same for a command whose LEN must be the size of its operand. -/
theorem lengthAndRangeChecks_pass {s : State} {addr len : Addr} {n : Nat} (hphase : s.phase ≠ .uninit)
    (hlen : len.toNat = n) (hrange : addr.toNat + n ≤ s.cfg.dmemSize) :
    firstError [notCreated s, lengthNot len n, outOfRange s addr n] = none := by
  simp [notCreated, lengthNot, outOfRange, hphase, hlen, hrange]

theorem memWrite_advancePc (s : State) (a : Nat) (bs : List Byte) :
    (s.memWrite a bs).advancePc = { s with dmem := s.dmem.writeBytes a bs, pc := s.pc + 8 } := rfl

/-- A command whose effect is to store words leaves them in DMEM byte by byte, and changes nothing else
(20_memory.md R62, R63). -/
theorem exec_storesWords {i : Instr} {s : State} (hc : firstError (checksOf i s) = none) (hwf : s.dmem.wf) {a : Nat}
    {ws : List Word} (heffect : effectOf i s = s.memWrite a (leBytes ws)) :
    ∃ m, exec i s = .next { s with dmem := m, pc := s.pc + 8 } ∧ storedAt s.dmem m a (bytesOfWords ws) := by
  refine ⟨s.dmem.writeBytes a (leBytes ws), ?_, ?_⟩
  · rw [exec_ok hc, heffect, memWrite_advancePc]
  · rw [← leBytes_eq_bytesOfWords]
    exact storedAt_writeBytes hwf a (leBytes ws)

/-! ### TFKEY and TFTWEAK -/

theorem firstWordsAre_putFirst (ws : List Word) (v : Vector Word 16) : firstWordsAre v (putFirst ws v) ws :=
  fun i hi => putFirst_getD ws v i 0 hi

/-- As many words as a register file holds replace all of it. -/
theorem putFirst_toList_of_length {α : Type} {n : Nat} {ws : List α} (h : ws.length = n) (v : Vector α n) :
    (putFirst ws v).toList = ws := by
  subst h
  simp [overlay_eq]

theorem putFirst_two_words (s : State) (a : Nat) (v : Vector Word 2) :
    putFirst (s.memWords a 2) v = #v[wordAtAddr s.dmem a, wordAtAddr s.dmem (a + 8)] := by
  rw [← Vector.toList_inj, putFirst_toList_of_length (by simp [State.memWords]), memWords_eq_wordsAtAddr]
  rfl

/-- Settles O20: every check passes, and each effect is one `putFirst` of the words at ADDR. -/
theorem tfkeyAndTftweakLoadTheRawRegisters : Obligations.TfkeyAndTftweakLoadTheRawRegisters := by
  intro addr len s hphase
  refine ⟨fun _ hlen hrange => ?_, fun hlen hrange => ?_⟩
  · have hc : firstError (checksOf (.tfkey addr len) s) = none :=
      lengthAndRangeChecks_pass hphase hlen hrange
    refine ⟨putFirst (s.memWords addr.toNat s.words) s.tfk, ?_, ?_⟩
    · rw [exec_ok hc]
      rfl
    · rw [memWords_eq_wordsAtAddr]
      exact firstWordsAre_putFirst _ s.tfk
  · have hc : firstError (checksOf (.tftweak addr len) s) = none :=
      lengthAndRangeChecks_pass hphase hlen hrange
    rw [exec_ok hc, ← putFirst_two_words s addr.toNat s.tft]
    rfl

/-! ### TFENC -/

theorem blockWords_of_stateSizes {nw : BitVec 8} (h : nw ∈ stateSizes) : BlockWords nw.toNat := by
  simp only [stateSizes, List.mem_cons, List.not_mem_nil, or_false] at h
  rcases h with rfl | rfl | rfl <;> decide

theorem rawCiphertext_eq (s : State) (a : Nat) :
    s.rawCiphertext a = threefish s.nw.toNat (s.tfk.toList.take s.nw.toNat) s.tft[0] s.tft[1]
      (wordsAtAddr s.dmem a s.nw.toNat) := by
  rw [State.rawCiphertext, memWords_eq_wordsAtAddr, takeFirst, State.words]

theorem bytesOfWords_length (ws : List Word) : (bytesOfWords ws).length = 8 * ws.length := by simp [bytesOfWords]

/-- Settles O21: TFENC stores the ciphertext, which has exactly the block's bytes, so that the bytes outside the store
are those outside the block. -/
theorem tfencEncryptsTheBlockInPlace : Obligations.TfencEncryptsTheBlockInPlace := by
  intro addr s hphase hnw hrange hwf
  have hc : firstError (checksOf (.tfenc addr) s) = none := rangeChecks_pass hphase hrange
  obtain ⟨m, hexec, hstored⟩ := exec_storesWords hc hwf (ws := s.rawCiphertext addr.toNat) rfl
  rw [rawCiphertext_eq] at hstored
  obtain ⟨hbytes, houtside⟩ := hstored
  refine ⟨m, hexec, ⟨hbytes, houtside⟩, fun x hx => houtside x ?_⟩
  rwa [bytesOfWords_length, threefish_length (blockWords_of_stateSizes hnw)]

/-! ### The published answers (95_test_vectors.md section 2) -/

/-- Settles O19: the kernel evaluates the cipher on each of the six published inputs. -/
theorem threefishGivesTheKnownAnswers : Obligations.ThreefishGivesTheKnownAnswers := by
  refine ⟨?zero4, ?zero8, ?zero16, ?counting4, ?counting8, ?counting16⟩
  case zero4 => decide +kernel
  case zero8 => decide +kernel
  case zero16 => decide +kernel
  case counting4 => decide +kernel
  case counting8 => decide +kernel
  case counting16 => decide +kernel

end Sys2Proof.Proofs

/-! PROOFS. The tweak register (41_tweak.md R150 to R164): what TWSTART, TWFLAG, TWLEVEL, TWADD and STTWEAK write, and that
they write nothing else. -/

namespace Sys2Proof.Proofs

open Sys2Proof.Machine Sys2Proof.Claims

/-! ### STTWEAK -/

/-- Settles O18: the effect is one store of the words T0 and T1. -/
theorem sttweakStoresTheTweak : Obligations.SttweakStoresTheTweak := by
  intro addr len s hphase hlen hrange hwf
  have hc : firstError (checksOf (.sttweak addr len) s) = none := lengthAndRangeChecks_pass hphase hlen hrange
  exact exec_storesWords hc hwf rfl

/-! ### TWADD -/

/-- In a created engine the other checks decide (10_state.md R27). -/
theorem firstError_notCreated {s : State} (hphase : s.phase ≠ .uninit) (cs : List Check) :
    firstError (notCreated s :: cs) = firstError cs := by
  simp [notCreated, hphase]

/-- Settles O17: TWADD's two words are those of AddPos, whose carries through the limbs `addPosition_spec` sums up. -/
theorem twaddAddsModulo96Bits : Obligations.TwaddAddsModulo96Bits := by
  intro imm s hphase
  have hc : firstError (checksOf (.twadd imm) s) = none := firstError_notCreated hphase []
  refine ⟨(addPosition imm.toNat s.t0 s.t1).1, (addPosition imm.toNat s.t0 s.t1).2, ?_, ?_⟩
  · rw [exec_ok hc]
    rfl
  · exact addPosition_spec imm.toNat s.t0 s.t1

/-! ### Written fields: TWLEVEL and TWFLAG -/

/-- A replaced field holds its new value, and every other bit is as it was. -/
theorem fieldWritten_insertField {n : Nat} (w : Word) (lo : Nat) (v : BitVec n) (h : lo + n ≤ 64) :
    fieldWritten w (insertField w lo v) lo n v.toNat := by
  refine ⟨?_, fun i hi => ?_⟩
  · calc (insertField w lo v).toNat / 2 ^ lo % 2 ^ n
        = ((insertField w lo v).extractLsb' lo n).toNat := by rw [BitVec.extractLsb'_toNat, Nat.shiftRight_eq_div_pow]
      _ = v.toNat := by rw [extract_insertField w lo v h]
  · by_cases hlt : i < 64
    · rw [insertField_getLsbD w lo v i hlt, if_neg (by omega)]
    · rw [BitVec.getLsbD_of_ge _ _ (by omega), BitVec.getLsbD_of_ge _ _ (by omega)]

/-- Settles O16: the level fits the seven bits of its field. -/
theorem twlevelWritesTheTreeLevel : Obligations.TwlevelWritesTheTreeLevel := by
  intro a s hphase hlevel
  have hc : firstError (checksOf (.twlevel a) s) = none := by
    simp [checksOf, firstError_notCreated hphase, hlevel]
  have hvalue : (a.extractLsb' 0 7).toNat = a.toNat := by
    rw [BitVec.extractLsb'_toNat, Nat.shiftRight_zero, Nat.mod_eq_of_lt (by omega)]
  refine ⟨insertField s.t1 48 (a.extractLsb' 0 7), ?_, ?_⟩
  · rw [exec_ok hc]
    rfl
  · rw [← hvalue]
    exact fieldWritten_insertField s.t1 48 _ (by omega)

/-- A flag value that R161 allows is its lowest bit. -/
theorem ofBool_lowBit_toNat {n : Nat} {v : BitVec n} (h : v.toNat ≤ 1) : (BitVec.ofBool (v.getLsbD 0)).toNat = v.toNat := by
  rw [BitVec.toNat_ofBool, ← BitVec.testBit_toNat, Nat.testBit_zero]
  rcases Nat.le_one_iff_eq_zero_or_eq_one.1 h with hv | hv <;> simp [hv]

/-- The selectors that R161 allows, with their bits. -/
theorem flagBit_of_selector {a : BitVec 8} {b : Nat} (h : a = 0 ∧ b = 62 ∨ a = 1 ∧ b = 63 ∨ a = 2 ∧ b = 55) :
    a.toNat ≤ 2 ∧ flagBit a = b := by
  rcases h with ⟨rfl, rfl⟩ | ⟨rfl, rfl⟩ | ⟨rfl, rfl⟩ <;> decide

/-- Settles O15: the selected bit is a field of width 1 that the value fits. -/
theorem twflagWritesOneFlag : Obligations.TwflagWritesOneFlag := by
  intro a imm b s hphase hvalue hselector
  obtain ⟨hlegal, hbit⟩ := flagBit_of_selector hselector
  have hc : firstError (checksOf (.twflag a imm) s) = none := by
    simp [checksOf, illegalWhen, firstError_notCreated hphase, hvalue, hlegal]
  refine ⟨insertField s.t1 b (BitVec.ofBool (imm.getLsbD 0)), ?_, ?_⟩
  · rw [exec_ok hc, ← hbit]
    rfl
  · rw [← ofBool_lowBit_toNat hvalue]
    exact fieldWritten_insertField s.t1 b _ (by omega)

/-! ### TWSTART -/

/-- R151's list, said in numbers. -/
theorem mem_blockTypes_iff {a : BitVec 8} : a ∈ blockTypes ↔ a.toNat ∈ [0, 4, 8, 12, 16, 20, 48, 63] :=
  (List.mem_map_of_injective (l := blockTypes) BitVec.toNat_injective).symm

/-- StartType of a code that fits TYPE: the code and the flag FIRST do not meet, so that joining them adds them
(41_tweak.md R153). -/
theorem startType_eq (s : State) {a : BitVec 8} (h : a.toNat ≤ 63) :
    s.startType a = { s with t0 := 0, t1 := BitVec.ofNat 64 (a.toNat * 2 ^ 56 + 2 ^ 62) } := by
  have hcode : (a.setWidth 64 <<< 56).toNat = a.toNat * 2 ^ 56 := by
    rw [BitVec.toNat_shiftLeft, BitVec.toNat_setWidth, Nat.shiftLeft_eq]
    omega
  have hfirst : ((1 : Word) <<< 62).toNat = 2 ^ 62 := by decide
  have hword : (a.setWidth 64 <<< 56) ||| ((1 : Word) <<< 62) = BitVec.ofNat 64 (a.toNat * 2 ^ 56 + 2 ^ 62) := by
    have hbelow : a.toNat * 2 ^ 56 < 2 ^ 62 := by omega
    have hjoin : 2 ^ 62 + a.toNat * 2 ^ 56 = 2 ^ 62 ||| a.toNat * 2 ^ 56 := Nat.two_pow_add_eq_or_of_lt hbelow 1
    refine BitVec.eq_of_toNat_eq ?_
    rw [BitVec.toNat_or, hcode, hfirst, Nat.lor_comm, BitVec.toNat_ofNat]
    omega
  rw [State.startType, hword]

/-- Settles O14: the eight codes pass the check and fit the field TYPE. -/
theorem twstartStartsTheBlockType : Obligations.TwstartStartsTheBlockType := by
  intro a s hphase hcode
  have hmem : a ∈ blockTypes := mem_blockTypes_iff.2 hcode
  have hc : firstError (checksOf (.twstart a) s) = none := by
    simp [checksOf, firstError_notCreated hphase, hmem]
  have hfits : a.toNat ≤ 63 := by
    simp only [List.mem_cons, List.not_mem_nil, or_false] at hcode
    omega
  rw [exec_ok hc, effectOf, startType_eq s hfits]
  rfl

end Sys2Proof.Proofs

/-! PROOFS. The configuration unit (42_config.md R180 to R196): what CREATE, the setters and GENCFG leave, and the
published values of CREATE and DOFINAL (95_test_vectors.md). -/

namespace Sys2Proof.Proofs

open Sys2Proof.Machine Sys2Proof.Claims

/-! ### GenConfig -/

theorem configBlock_length {s : State} (h : 4 ≤ s.words) : s.configBlock.length = s.words := by
  simp [State.configBlock]
  omega

/-- GenConfig fills CFGVAL: the feed-forward of the configuration block, then zeros from Nw on (42_config.md R182 to
R184). -/
theorem genConfig_cfgval_toList {s : State} (hnw : s.nw ∈ stateSizes) (key : List Word) :
    (s.genConfig key).cfgval.toList = configValue s.nw.toNat s.cfgstr key := by
  have hsize : BlockWords s.words := blockWords_of_stateSizes hnw
  have hrange : 4 ≤ s.words ∧ s.words ≤ 16 := by omega
  have hlen : (xorWords (threefish s.words key 32 0xC400000000000000 s.configBlock) s.configBlock).length =
      s.words := by
    rw [xorWords_length, threefish_length hsize, configBlock_length hrange.1, Nat.min_self]
  rw [State.genConfig_cfgval, putFirst_toList, overlay_eq, hlen, Vector.toList_replicate, List.length_replicate,
    List.take_of_length_le (by omega), List.drop_replicate]
  rfl

theorem genConfig_cfgval_zeroFrom (s : State) (key : List Word) : ZeroFrom s.words (s.genConfig key).cfgval := by
  rw [State.genConfig_cfgval]
  refine zeroFrom_putFirst ?_ (zeroFrom_replicate _ 16)
  have hcipher := threefish_length_le s.words key 32 0xC400000000000000 s.configBlock
  rw [xorWords_length]
  omega

theorem genConfig_eq (s : State) (key : List Word) :
    s.genConfig key = { s with cfgval := (s.genConfig key).cfgval } := by cases s; rfl

/-! ### GENCFG -/

theorem gencfgChecks_pass {a : BitVec 8} {s : State} (hphase : s.phase ≠ .uninit) (htree : s.cfgstr[2] = 0)
    (ha : a.toNat ≤ 1) : firstError (checksOf (.gencfg a) s) = none := by
  simp [checksOf, illegalWhen, firstError_notCreated hphase, treeConfigured, htree, ha]

/-- GENCFG writes CFGVAL, under the key that its operand names, and nothing else. -/
theorem exec_gencfg {a : BitVec 8} {s : State} (hc : firstError (checksOf (.gencfg a) s) = none)
    (hnw : s.nw ∈ stateSizes) :
    ∃ v : Vector Word 16, exec (.gencfg a) s = .next { s with cfgval := v, pc := s.pc + 8 } ∧
      v.toList = configValue s.nw.toNat s.cfgstr (if a = 0 then s.zeroKey else s.chainWords) := by
  refine ⟨_, ?_, genConfig_cfgval_toList hnw _⟩
  rw [exec_ok hc, effectOf_gencfg, genConfig_eq]
  rfl

/-- Settles O25: one derivation under each of the two keys. -/
theorem gencfgWritesOnlyCfgval : Obligations.GencfgWritesOnlyCfgval := by
  intro s hphase hnw htree
  constructor
  · exact exec_gencfg (a := 0) (gencfgChecks_pass hphase htree (by decide)) hnw
  · exact exec_gencfg (a := 1) (gencfgChecks_pass hphase htree (by decide)) hnw

/-! ### CREATE -/

/-- The operands that R190 allows pass CREATE's checks. -/
theorem createChecks_pass {a : BitVec 8} {imm : BitVec 32} (ha : a ∈ stateSizes) (hpos : 1 ≤ imm.toNat)
    (hlt : imm.toNat < 2 ^ 31) (s : State) : firstError (checksOf (.create a imm) s) = none := by
  have hsigned : ¬ imm.toInt ≤ 0 := by
    rw [BitVec.toInt_eq_toNat_of_lt (by omega)]
    omega
  simp [checksOf, ha, hsigned]

/-- Putting the first entries of a file over another gives that file, if both are 0 from there on. -/
theorem putFirst_takeFirst_of_zeroFrom {m n k : Nat} {v w : Vector (BitVec m) n} (hv : ZeroFrom k v)
    (hw : ZeroFrom k w) : putFirst (takeFirst k v) w = v := by
  have hentries : ∀ i < n, (putFirst (takeFirst k v) w).toList.getD i 0 = v.toList.getD i 0 := by
    intro i hi
    rw [putFirst_getD _ _ _ _ hi, takeFirst_length]
    by_cases hik : i < k
    · simp [takeFirst, hi, hik]
    · rw [if_neg (by omega), hw i (by omega), hv i (by omega)]
  refine Vector.ext fun i hi => ?_
  simpa [hi, -putFirst_toList] using hentries i hi

/-- STATE = CFGVAL after CREATE (42_config.md R190): what InitNormal copies is all that is not 0. -/
theorem createEngine_chain (a : BitVec 8) (imm : BitVec 32) (s : State) :
    (s.createEngine a imm).chain = (s.createEngine a imm).cfgval := by
  rw [createEngine_eq, State.initNormal_chain, State.initNormal_cfgval]
  exact putFirst_takeFirst_of_zeroFrom (genConfig_cfgval_zeroFrom _ _) (zeroFrom_replicate _ 16)

/-- The configuration value that CREATE derives is that of the default string under the zero key (42_config.md R181,
R185). -/
theorem createEngine_cfgval_toList {a : BitVec 8} (ha : a ∈ stateSizes) (imm : BitVec 32) (s : State) :
    (s.createEngine a imm).cfgval.toList = configValue a.toNat (defaultConfig imm) (List.replicate a.toNat 0) := by
  rw [createEngine_eq, State.initNormal_cfgval]
  exact genConfig_cfgval_toList (s := blankEngine a imm s) ha _

/-- CREATE's writes, STATE and CFGVAL as given. -/
theorem createEngine_advancePc {a : BitVec 8} {imm : BitVec 32} {s : State} {c v : Vector Word 16}
    (hchain : (s.createEngine a imm).chain = c) (hcfgval : (s.createEngine a imm).cfgval = v) :
    (s.createEngine a imm).advancePc = { s with
      nw := a, outbits := imm, chain := c, t0 := 0, t1 := messageT1, ibuf := Vector.replicate 128 0, fill := 0,
      phase := .accum, cfgstr := defaultConfig imm, cfgval := v, tfk := Vector.replicate 16 0,
      tft := Vector.replicate 2 0, pc := s.pc + 8 } := by
  subst hchain hcfgval
  cases s
  rfl

/-- Settles O23: STATE and CFGVAL are one value, the derivation's, and the other writes are constants. -/
theorem createBuildsAFreshEngine : Obligations.CreateBuildsAFreshEngine := by
  intro a imm s ha hpos hlt
  refine ⟨(s.createEngine a imm).cfgval, ?_, createEngine_cfgval_toList ha imm s⟩
  rw [exec_ok (createChecks_pass ha hpos hlt s), effectOf, createEngine_advancePc (createEngine_chain a imm s) rfl]
  rfl

/-! ### The setters -/

theorem vector4_set_zero {α : Type} (v : Vector α 4) (x : α) : v.set 0 x = #v[x, v[1], v[2], v[3]] := by
  ext i hi
  interval_cases i <;> simp

theorem vector4_set_two {α : Type} (v : Vector α 4) (x : α) : v.set 2 x = #v[v[0], v[1], x, v[3]] := by
  ext i hi
  interval_cases i <;> simp

/-- A setter whose field lies in CFGSTR[0] (42_config.md R191, R192). -/
theorem exec_setsWordZero {i : Instr} {s : State} (hc : firstError (checksOf i s) = none) {n lo : Nat} {v : BitVec n}
    (hfits : lo + n ≤ 64) (heffect : effectOf i s = s.setConfigField 0 lo v) :
    ∃ w, exec i s = .next { s with cfgstr := #v[w, s.cfgstr[1], s.cfgstr[2], s.cfgstr[3]], pc := s.pc + 8 } ∧
      fieldWritten s.cfgstr[0] w lo n v.toNat := by
  refine ⟨insertField s.cfgstr[0] lo v, ?_, fieldWritten_insertField _ lo v hfits⟩
  rw [exec_ok hc, heffect, ← vector4_set_zero]
  rfl

/-- A setter whose field lies in CFGSTR[2] (42_config.md R193 to R195). -/
theorem exec_setsWordTwo {i : Instr} {s : State} (hc : firstError (checksOf i s) = none) {n lo : Nat} {v : BitVec n}
    (hfits : lo + n ≤ 64) (heffect : effectOf i s = s.setConfigField 2 lo v) :
    ∃ w, exec i s = .next { s with cfgstr := #v[s.cfgstr[0], s.cfgstr[1], w, s.cfgstr[3]], pc := s.pc + 8 } ∧
      fieldWritten s.cfgstr[2] w lo n v.toNat := by
  refine ⟨insertField s.cfgstr[2] lo v, ?_, fieldWritten_insertField _ lo v hfits⟩
  rw [exec_ok hc, heffect, ← vector4_set_two]
  rfl

/-- The schema tag: the four bytes at an address are the low half of the word there (20_memory.md R63). -/
theorem schemaTag_toNat (s : State) (a : Nat) :
    ((leWord (s.memRead a 4)).extractLsb' 0 32).toNat = (wordAtAddr s.dmem a).toNat % 2 ^ 32 := by
  rw [BitVec.extractLsb'_toNat, Nat.shiftRight_zero, ← leWord_memRead, leWord_memRead_toNat s a (by omega),
    leWord_memRead_toNat s a (by omega)]
  simp only [List.range_succ, List.range_zero, List.nil_append, List.map_append, List.map_cons, List.map_nil,
    List.sum_append, List.sum_cons, List.sum_nil]
  omega

theorem extractLow_toNat {m n : Nat} {v : BitVec m} (h : v.toNat < 2 ^ n) : (v.extractLsb' 0 n).toNat = v.toNat := by
  rw [BitVec.extractLsb'_toNat, Nat.shiftRight_zero, Nat.mod_eq_of_lt h]

/-- Settles O24: each setter's checks pass and its effect is one field of its operand's value. -/
theorem configSettersWriteOneFieldOfCfgstr : Obligations.ConfigSettersWriteOneFieldOfCfgstr := by
  intro s hphase
  refine ⟨?schema, ?version, ?leaf, ?fan, ?height⟩
  case schema =>
    intro addr len hlen hrange
    have hc : firstError (checksOf (.setschema addr len) s) = none := lengthAndRangeChecks_pass hphase hlen hrange
    rw [← schemaTag_toNat]
    exact exec_setsWordZero hc (by omega) rfl
  case version =>
    intro imm hversion
    have hc : firstError (checksOf (.setver imm) s) = none := by
      simp [checksOf, firstError_notCreated hphase, hversion]
    rw [← extractLow_toNat (n := 8) (v := imm) (by omega)]
    exact exec_setsWordZero hc (by omega) rfl
  case leaf =>
    intro a
    have hc : firstError (checksOf (.setleaf a) s) = none := firstError_notCreated hphase []
    exact exec_setsWordTwo hc (by omega) rfl
  case fan =>
    intro a
    have hc : firstError (checksOf (.setfan a) s) = none := firstError_notCreated hphase []
    exact exec_setsWordTwo hc (by omega) rfl
  case height =>
    intro a hheight
    have hc : firstError (checksOf (.setheight a) s) = none := by
      simpa [checksOf, firstError_notCreated hphase] using hheight
    exact exec_setsWordTwo hc (by omega) rfl

/-! ### The published values (95_test_vectors.md) -/

/-- What DOFINAL stores: the digest under the chaining value that the last block leaves (44_output.md R252). -/
def messageDigest (s : State) : List Byte := digest s.words s.finish.chainWords s.digestBytes

theorem finalize_dmem (s : State) (a : Nat) : (s.finalize a).dmem = s.dmem.writeBytes a (messageDigest s) := by
  cases s; rfl

/-- The registers of `u` in the machine of `s`: the parameters, DMEM and turns are those of `s`. -/
def within (s u : State) : State := { u with cfg := s.cfg, dmem := s.dmem, turns := s.turns }

theorem powerUp_eq_within {s : State} (h : PowerUp s) : s = within s State.reset := h.2

theorem createEngine_within (s u : State) (a : BitVec 8) (imm : BitVec 32) :
    (within s u).createEngine a imm = within s (u.createEngine a imm) := by cases u; rfl

theorem messageDigest_within (s u : State) : messageDigest (within s u).advancePc = messageDigest u := by
  cases u; rfl

/-- The engine that CREATE leaves after power-up. -/
def createdFromReset (a : BitVec 8) (imm : BitVec 32) : State := State.reset.createEngine a imm

theorem runAll_cons {i : Instr} {s t : State} (h : exec i s = .next t) (is : List Instr) :
    runAll (i :: is) s = runAll is t := by
  rw [runAll, h]

section
variable {s : State} {a : BitVec 8} {imm : BitVec 32} (ha : a ∈ stateSizes) (hpos : 1 ≤ imm.toNat)
  (hlt : imm.toNat < 2 ^ 31)
include ha hpos hlt

theorem runAll_create (is : List Instr) :
    runAll (.create a imm :: is) s = runAll is (s.createEngine a imm).advancePc :=
  runAll_cons (exec_ok (createChecks_pass ha hpos hlt s)) is

/-- CFGVAL after a CREATE is the configuration value, whatever state it ran in. -/
theorem runAll_create_cfgval {β : Type} (f : List Word → β) :
    (runAll [.create a imm] s).map (fun t => f t.cfgval.toList) =
      some (f (configValue a.toNat (defaultConfig imm) (List.replicate a.toNat 0))) := by
  rw [runAll_create ha hpos hlt, ← createEngine_cfgval_toList ha imm s]
  rfl

/-- From power-up, CREATE and DOFINAL store at ADDR the digest that the same engine gives after reset. -/
theorem runAll_create_dofinal_dmem (hs : PowerUp s) {addr : Addr}
    (hrange : addr.toNat + bytesOfBits imm.toNat ≤ s.cfg.dmemSize) {β : Type} (f : Memory → β) :
    (runAll [.create a imm, .dofinal addr] s).map (fun t => f t.dmem) =
      some (f (s.dmem.writeBytes addr.toNat (messageDigest (createdFromReset a imm)))) := by
  have hcreated : s.createEngine a imm = within s (createdFromReset a imm) := by
    rw [createdFromReset, ← createEngine_within, ← powerUp_eq_within hs]
  have hdigest : messageDigest (s.createEngine a imm).advancePc = messageDigest (createdFromReset a imm) := by
    rw [hcreated, messageDigest_within]
  have hc : firstError (checksOf (.dofinal addr) (s.createEngine a imm).advancePc) = none :=
    rangeChecks_pass (by simp [State.createEngine]) (by simpa [State.createEngine, State.digestBytes] using hrange)
  rw [runAll_create ha hpos hlt, runAll_cons (exec_ok hc), ← hdigest]
  exact congrArg (some ∘ f) (finalize_dmem _ addr.toNat)

/-- A digest that is known after reset is what the same commands leave at ADDR from every power-up. -/
theorem runAll_create_dofinal_readBytes (hs : PowerUp s) {addr : Addr}
    (hrange : addr.toNat + bytesOfBits imm.toNat ≤ s.cfg.dmemSize) {bs : List Byte}
    (hbs : messageDigest (createdFromReset a imm) = bs) {n : Nat} (hn : bs.length = n) :
    (runAll [.create a imm, .dofinal addr] s).map (fun t => t.dmem.readBytes addr.toNat n) = some bs := by
  subst hbs hn
  rw [runAll_create_dofinal_dmem ha hpos hlt hs hrange (fun m => m.readBytes addr.toNat _),
    Memory.readBytes_writeBytes hs.1.canonical]
end

/-- The digest of V-OUT-4, cut to two bytes (44_output.md R252). -/
theorem messageDigest_twelveBits : messageDigest (createdFromReset 4 12) = [0x3F, 0x32] := by decide +kernel

/-- Settles O37: CFGVAL is a closed configuration value and the digest that of the engine after reset, which the kernel
evaluates; the store into the power-up DMEM is the memory's rule. -/
theorem createAndDofinalGiveThePublishedValues : Obligations.CreateAndDofinalGiveThePublishedValues := by
  intro s hs hcfg
  have hsize : s.cfg.dmemSize = 65536 := by rw [hcfg]; rfl
  refine ⟨?iv256, ?iv512, ?iv1024, ?digest256, ?digest512, ?digest12⟩
  case iv256 =>
    refine (runAll_create_cfgval (by decide) (by decide) (by decide) (List.take 4)).trans ?_
    decide +kernel
  case iv512 =>
    refine (runAll_create_cfgval (by decide) (by decide) (by decide) (List.take 8)).trans ?_
    decide +kernel
  case iv1024 =>
    refine (runAll_create_cfgval (by decide) (by decide) (by decide) id).trans ?_
    decide +kernel
  case digest256 =>
    refine runAll_create_dofinal_readBytes (addr := 0x1000) (by decide) (by decide) (by decide) hs
      (by rw [hsize]; decide) ?_ rfl
    decide +kernel
  case digest512 =>
    refine runAll_create_dofinal_readBytes (addr := 0x1000) (by decide) (by decide) (by decide) hs
      (by rw [hsize]; decide) ?_ rfl
    decide +kernel
  case digest12 =>
    have hwf : s.dmem.wf := hs.1.canonical
    refine (runAll_create_dofinal_dmem (addr := 0x1000) (by decide) (by decide) (by decide) hs (by rw [hsize]; decide)
      (fun m => (m.readBytes 0x1000 2, m.read 0x1002))).trans ?_
    rw [messageDigest_twelveBits]
    refine congrArg some (Prod.ext (Memory.readBytes_writeBytes hwf 0x1000 [0x3F, 0x32]) ?_)
    exact (Memory.read_writeBytes hwf 0x1000 _ 0x1002).trans (if_neg (by decide))

end Sys2Proof.Proofs

/-! PROOFS. The UBI engine (43_ubi.md R210 to R225): what INIT, LDSTATE, STSTATE, UPDATE, UPDBITS and UBIFIN leave, and that
an UPDATE may be split. -/

namespace Sys2Proof.Proofs

open Sys2Proof.Machine Sys2Proof.Claims

/-! ### INIT, LDSTATE and STSTATE -/

theorem restartWith_advancePc (s : State) (ws : List Word) :
    (s.restartWith ws).advancePc =
      { s with chain := putFirst ws s.chain, t0 := 0, t1 := messageT1, fill := 0, pc := s.pc + 8 } := by cases s; rfl

theorem initNormal_eq_restartWith (s : State) : s.initNormal = s.restartWith (takeFirst s.words s.cfgval) := rfl

/-- A command whose effect is a Message restart under given words (43_ubi.md R220, R221). -/
theorem exec_restartsWith {i : Instr} {s : State} (hc : firstError (checksOf i s) = none) {ws : List Word}
    (heffect : effectOf i s = s.restartWith ws) :
    ∃ c, exec i s = .next { s with chain := c, t0 := 0, t1 := messageT1, fill := 0, pc := s.pc + 8 } ∧
      firstWordsAre s.chain c ws := by
  refine ⟨putFirst ws s.chain, ?_, firstWordsAre_putFirst ws s.chain⟩
  rw [exec_ok hc, heffect, restartWith_advancePc]

/-- INIT's checks in a created engine: a mode, and no tree parameters where CFGVAL is derived (43_ubi.md R220). -/
theorem initChecks_pass {a : BitVec 8} {s : State} (hphase : s.phase ≠ .uninit) (ha : ¬ 3 < a.toNat)
    (htree : (a == 3 && (treeConfigured s).1) = false) : firstError (checksOf (.init a) s) = none := by
  simp only [checksOf, illegalWhen, htree, firstError_cons, firstError_notCreated hphase, firstError_nil]
  simp [ha]

/-- INIT chainedcfg (43_ubi.md R220): the derivation writes CFGVAL, and the restart takes STATE from there. -/
theorem genConfig_initNormal_advancePc (s : State) (key : List Word) :
    (s.genConfig key).initNormal.advancePc =
      { s with
        chain := putFirst (takeFirst s.words (s.genConfig key).cfgval) s.chain, cfgval := (s.genConfig key).cfgval,
        t0 := 0, t1 := messageT1, fill := 0, pc := s.pc + 8 } := by
  rw [initNormal_eq_restartWith, restartWith_advancePc, genConfig_eq]
  rfl

/-- Settles O26: modes 0 and 1 restart under CFGVAL and under zeros, mode 2 restarts and keeps STATE, and mode 3 is mode 0
after the derivation. -/
theorem initRestartsInFourModes : Obligations.InitRestartsInFourModes := by
  intro s hphase hnw
  refine ⟨?normal, ?zeroed, ?chained, ?chainedConfig⟩
  case normal =>
    have hc : firstError (checksOf (.init 0) s) = none := initChecks_pass hphase (by decide) rfl
    exact exec_restartsWith hc (initNormal_eq_restartWith s)
  case zeroed =>
    have hc : firstError (checksOf (.init 1) s) = none := initChecks_pass hphase (by decide) rfl
    exact exec_restartsWith hc (ws := s.zeroKey) rfl
  case chained =>
    have hc : firstError (checksOf (.init 2) s) = none := initChecks_pass hphase (by decide) rfl
    rw [exec_ok hc]
    rfl
  case chainedConfig =>
    intro htree
    have hc : firstError (checksOf (.init 3) s) = none :=
      initChecks_pass hphase (by decide) (by simp [treeConfigured, htree])
    refine ⟨_, (s.genConfig s.chainWords).cfgval, ?_, genConfig_cfgval_toList hnw _, firstWordsAre_putFirst _ s.chain⟩
    rw [exec_ok hc, effectOf, State.initMode_three, genConfig_initNormal_advancePc]
    rfl

/-- Settles O27: LDSTATE is a restart under the words at ADDR. -/
theorem ldstateLoadsTheChainingState : Obligations.LdstateLoadsTheChainingState := by
  intro addr len s hphase _ hlen hrange
  have hc : firstError (checksOf (.ldstate addr len) s) = none := lengthAndRangeChecks_pass hphase hlen hrange
  rw [← memWords_eq_wordsAtAddr]
  exact exec_restartsWith hc rfl

theorem chainOf_length {s : State} (hnw : s.nw ∈ stateSizes) : (chainOf s).length = s.nw.toNat := by
  have hsize := blockWords_of_stateSizes hnw
  simp only [chainOf, List.length_take, Vector.length_toList]
  omega

/-- Settles O28: STSTATE is one store of STATE[0..Nw-1], whose bytes are exactly Nb. -/
theorem ststateStoresTheChainingState : Obligations.StstateStoresTheChainingState := by
  intro addr len s hphase hnw hlen hrange hwf
  have hc : firstError (checksOf (.ststate addr len) s) = none := lengthAndRangeChecks_pass hphase hlen hrange
  obtain ⟨m, hexec, hstored⟩ := exec_storesWords hc hwf (ws := chainOf s) rfl
  obtain ⟨hbytes, houtside⟩ := hstored
  refine ⟨m, hexec, ⟨hbytes, houtside⟩, fun x hx => houtside x ?_⟩
  rwa [bytesOfWords_length, chainOf_length hnw]

/-! ### UPDATE within one block -/

theorem exec_update {addr len : Addr} {s : State} (hphase : s.phase ≠ .uninit)
    (hrange : addr.toNat + len.toNat ≤ s.cfg.dmemSize) :
    exec (.update addr len) s = .next (s.appendBytes (s.memRead addr.toNat len.toNat)).advancePc := by
  have hc : firstError (checksOf (.update addr len) s) = none := rangeChecks_pass hphase hrange
  rw [exec_ok hc, effectOf]

theorem memRead_getD (s : State) (a : Nat) {n j : Nat} (h : j < n) : (s.memRead a n).getD j 0 = s.dmem.read (a + j) :=
  Memory.readBytes_getD s.dmem a n j h

/-- The block is no longer than IBUF (10_state.md R25). -/
theorem blockBytes_le {s : State} (hnw : s.nw ∈ stateSizes) : s.blockBytes ≤ 128 := by
  have hsize := blockWords_of_stateSizes hnw
  rw [State.blockBytes_eq]
  omega

/-- Entry `j` of a register file after entry `n` is written. -/
theorem getD_setIfInBounds {α : Type} {k n : Nat} (v : Vector α k) (x d : α) (hn : n < k) (j : Nat) :
    (v.setIfInBounds n x).toList.getD j d = if j = n then x else v.toList.getD j d := by
  by_cases hj : j = n
  · subst hj
    simp [hn]
  · rw [if_neg hj]
    simp [Ne.symm hj]

theorem flushFull_of_room {s : State} (h : s.fill.toNat ≠ s.blockBytes) : s.flushFull = s := if_neg h

/-- FILL counts on, up to the longest block. -/
theorem fill_add_one {f : BitVec 8} (h : f.toNat < 128) : (f + 1).toNat = f.toNat + 1 := by bv_omega

/-- What stands at place `j` when a byte string is put at `n`: its first byte at `n`, the others from `n + 1` on. -/
theorem getD_cons_from (n j : Nat) (x old : Byte) (bs : List Byte) :
    (if n + 1 ≤ j ∧ j < n + 1 + bs.length then bs.getD (j - (n + 1)) 0 else if j = n then x else old) =
      if n ≤ j ∧ j < n + (bs.length + 1) then (x :: bs).getD (j - n) 0 else old := by
  rcases Nat.lt_trichotomy j n with hlt | rfl | hgt
  · rw [if_neg (by omega), if_neg (by omega), if_neg (by omega)]
  · rw [if_neg (by omega), if_pos rfl, if_pos (by omega), Nat.sub_self, List.getD_cons_zero]
  · by_cases hin : j < n + (bs.length + 1)
    · rw [if_pos (by omega), if_pos (by omega), show j - n = j - (n + 1) + 1 by omega, List.getD_cons_succ]
    · rw [if_neg (by omega), if_neg (by omega), if_neg (by omega)]

/-- Bytes that fit in the block are buffered, and nothing else happens (43_ubi.md R212). -/
theorem appendBytes_of_fits {s : State} (hnw : s.nw ∈ stateSizes) {bs : List Byte}
    (h : s.fill.toNat + bs.length ≤ s.blockBytes) :
    ∃ b : Vector Byte 128,
      s.appendBytes bs = { s with ibuf := b, fill := BitVec.ofNat 8 (s.fill.toNat + bs.length) } ∧
      ∀ j, b.toList.getD j 0 =
        if s.fill.toNat ≤ j ∧ j < s.fill.toNat + bs.length then bs.getD (j - s.fill.toNat) 0
        else s.ibuf.toList.getD j 0 := by
  induction bs generalizing s with
  | nil =>
    refine ⟨s.ibuf, ?_, fun j => by rw [if_neg (by simp)]⟩
    rw [State.appendBytes_nil, List.length_nil, Nat.add_zero, BitVec.ofNat_toNat, BitVec.setWidth_eq]
  | cons x bs ih =>
    have hblock := blockBytes_le hnw
    rw [List.length_cons] at h
    have hpush : s.appendByte x = s.pushByte x := by rw [State.appendByte, flushFull_of_room (by omega)]
    have hfill : (s.pushByte x).fill.toNat = s.fill.toNat + 1 := fill_add_one (by omega)
    have hroom : (s.pushByte x).fill.toNat + bs.length ≤ s.blockBytes := by omega
    obtain ⟨b, hb, hbytes⟩ := ih (s := s.pushByte x) hnw hroom
    rw [hfill] at hb hbytes
    refine ⟨b, ?_, fun j => ?_⟩
    · rw [State.appendBytes_cons, hpush, hb, List.length_cons, Nat.add_assoc, Nat.add_comm 1]
      rfl
    · rw [hbytes, State.pushByte_ibuf, getD_setIfInBounds _ _ _ (by omega), getD_cons_from, List.length_cons]

/-- Settles O30: the bytes read are appended where they fit. -/
theorem updateBuffersWhatFits : Obligations.UpdateBuffersWhatFits := by
  intro addr len s hphase hnw hfits hrange
  obtain ⟨b, hb, hbytes⟩ := appendBytes_of_fits hnw (bs := s.memRead addr.toNat len.toNat)
    (by rw [State.memRead_length]; exact hfits)
  rw [State.memRead_length] at hb hbytes
  refine ⟨b, ?_, fun j hj => ?_, fun j hj => ?_⟩
  · rw [exec_update hphase hrange, hb]
    rfl
  · rw [hbytes, if_pos (by omega), Nat.add_sub_cancel_left, memRead_getD _ _ hj]
  · rw [hbytes, if_neg (by omega)]

/-! ### The transform of a block -/

theorem processBlock_eq (s : State) (n : Nat) :
    s.processBlock n = { s with
      chain := (s.processBlock n).chain, t0 := (addPosition n s.t0 s.t1).1, t1 := (addPosition n s.t0 s.t1).2 } := by
  cases s; rfl

/-- ProcessBlock feeds the block forward under the advanced tweak into STATE[0..Nw-1] (43_ubi.md R210). -/
theorem processBlock_firstWordsAre (s : State) (n : Nat) :
    firstWordsAre s.chain (s.processBlock n).chain
      (ubi s.nw.toNat (chainOf s) (addPosition n s.t0 s.t1).1 (addPosition n s.t0 s.t1).2
        (leWords s.nw.toNat s.ibuf.toList)) := by
  rw [State.processBlock_chain]
  exact firstWordsAre_putFirst _ s.chain

/-- The lazy transform of a full buffer (43_ubi.md R211, R212). -/
theorem flushFull_of_full {s : State} (h : s.fill.toNat = s.blockBytes) :
    s.flushFull = { s with
      chain := (s.processBlock s.blockBytes).chain, t0 := (addPosition s.blockBytes s.t0 s.t1).1,
      t1 := insertField (addPosition s.blockBytes s.t0 s.t1).2 62 (BitVec.ofBool false), fill := 0 } := by
  rw [State.flushFull, if_pos h, processBlock_eq]
  rfl

theorem setIfInBounds_zero (v : Vector Byte 128) (b : Byte) : v.setIfInBounds 0 b = v.set 0 b := by
  refine Vector.ext fun i hi => ?_
  simp [Vector.getElem_set, Vector.getElem_setIfInBounds]

/-- The byte at an empty buffer becomes byte 0 (43_ubi.md R212). -/
theorem pushByte_of_empty {s : State} (h : s.fill = 0) (b : Byte) :
    s.pushByte b = { s with ibuf := s.ibuf.set 0 b, fill := 1 } := by
  rw [State.pushByte, h, ← setIfInBounds_zero]
  rfl

/-- Settles O31: the one byte read is appended after the lazy transform. -/
theorem updateTransformsAFullBlockLazily : Obligations.UpdateTransformsAFullBlockLazily := by
  intro addr s hphase _ hfull hrange
  have hread : s.memRead addr.toNat (1 : Addr).toNat = [s.dmem.read addr.toNat] := rfl
  obtain ⟨hcounter, hhigh⟩ := addPosition_spec s.blockBytes s.t0 s.t1
  refine ⟨_, _, _, insertField _ 62 (BitVec.ofBool false), ?_, hcounter, hhigh,
    fieldWritten_insertField _ 62 _ (by omega), processBlock_firstWordsAre s s.blockBytes⟩
  rw [exec_update hphase hrange, hread, State.appendBytes_cons, State.appendBytes_nil, State.appendByte,
    flushFull_of_full hfull, pushByte_of_empty rfl]
  rfl

/-! ### UPDATE in pieces -/

/-- The state at another PC. -/
def withPc (p : Addr) (s : State) : State := { s with pc := p }

theorem advancePc_eq_withPc (s : State) : s.advancePc = withPc (s.pc + 8) s := rfl

theorem flushFull_withPc (p : Addr) (s : State) : (withPc p s).flushFull = withPc p s.flushFull := by
  unfold State.flushFull
  rw [apply_ite (withPc p)]
  rfl

/-- Appending bytes does not read PC. -/
theorem appendBytes_withPc (p : Addr) (s : State) (bs : List Byte) :
    (withPc p s).appendBytes bs = withPc p (s.appendBytes bs) := by
  induction bs generalizing s with
  | nil => rfl
  | cons b bs ih =>
    have hbyte : (withPc p s).appendByte b = withPc p (s.appendByte b) := by
      rw [State.appendByte, flushFull_withPc]
      rfl
    rw [State.appendBytes_cons, hbyte, ih, State.appendBytes_cons]

/-- A read is the reads of its two parts. -/
theorem memRead_add (s : State) (a m n : Nat) : s.memRead a (m + n) = s.memRead a m ++ s.memRead (a + m) n := by
  simp [State.memRead, Memory.readBytes, List.range_add, Nat.add_assoc]

/-- The operands of an UPDATE name the range that it is to read. Only the address of an empty range may stand at the end of
the address space, where it wraps to 0 and nothing is read (20_memory.md R66). -/
theorem updateOperands_ofNat (s : State) {a n : Nat} (h : a + n ≤ 2 ^ 24) (hn : n < 2 ^ 24) :
    (BitVec.ofNat 24 a).toNat ≤ a ∧ (BitVec.ofNat 24 n).toNat = n ∧
      s.memRead (BitVec.ofNat 24 a).toNat n = s.memRead a n := by
  simp only [BitVec.toNat_ofNat]
  refine ⟨Nat.mod_le _ _, Nat.mod_eq_of_lt hn, ?_⟩
  rcases Nat.eq_zero_or_pos n with rfl | hpos
  · rfl
  · rw [Nat.mod_eq_of_lt (by omega)]

/-- UPDATE of a range inside DMEM, said in numbers. -/
theorem exec_update_ofNat {s : State} {a n : Nat} (hphase : s.phase ≠ .uninit) (hsize : s.cfg.dmemSize ≤ 2 ^ 24)
    (hn : n < 2 ^ 24) (hrange : a + n ≤ s.cfg.dmemSize) :
    exec (.update (BitVec.ofNat 24 a) (BitVec.ofNat 24 n)) s = .next (s.appendBytes (s.memRead a n)).advancePc := by
  obtain ⟨haddr, hlen, hread⟩ := updateOperands_ofNat s (a := a) (n := n) (by omega) hn
  rw [exec_update hphase (by omega), hlen, hread]

/-- The pieces append what the whole appends: each appends its own part of the read, and leaves DMEM as it is. -/
theorem runAll_updatesFrom {s : State} {a : Nat} {ns : List Nat} (hphase : s.phase ≠ .uninit)
    (hsize : s.cfg.dmemSize ≤ 2 ^ 24) (hn : ns.sum < 2 ^ 24) (hrange : a + ns.sum ≤ s.cfg.dmemSize) :
    ∃ p, runAll (updatesFrom a ns) s = some (withPc p (s.appendBytes (s.memRead a ns.sum))) := by
  induction ns generalizing s a with
  | nil => exact ⟨s.pc, rfl⟩
  | cons n ns ih =>
    rw [List.sum_cons] at hn hrange
    have hfirst := exec_update_ofNat (a := a) (n := n) hphase hsize (by omega) (by omega)
    obtain ⟨p, hrest⟩ := ih (s := (s.appendBytes (s.memRead a n)).advancePc) (a := a + n) (by simpa using hphase)
      (by simpa using hsize) (by omega) (by simp; omega)
    have hdmem : (s.appendBytes (s.memRead a n)).advancePc.memRead (a + n) ns.sum = s.memRead (a + n) ns.sum := by
      simp [State.memRead]
    refine ⟨p, ?_⟩
    rw [updatesFrom, runAll_cons hfirst, hrest, hdmem, List.sum_cons, memRead_add, State.appendBytes_append,
      advancePc_eq_withPc, appendBytes_withPc]
    rfl

/-- Settles O32: both runs append the whole read. -/
theorem updateOfPiecesIsUpdateOfTheWhole : Obligations.UpdateOfPiecesIsUpdateOfTheWhole := by
  intro addr ns s hphase hvalid hn hrange
  obtain ⟨-, -, hsize⟩ := hvalid
  have hwhole := exec_update_ofNat hphase hsize hn hrange
  rw [BitVec.ofNat_toNat, BitVec.setWidth_eq] at hwhole
  obtain ⟨p, hpieces⟩ := runAll_updatesFrom hphase hsize hn hrange
  exact ⟨_, _, hwhole, hpieces, rfl⟩

/-! ### UPDBITS -/

theorem exec_updbits {addr len : Addr} {s : State} (hphase : s.phase ≠ .uninit) (hbitpad : s.t1.getLsbD 55 = false)
    (hrange : addr.toNat + bytesOfBits len.toNat ≤ s.cfg.dmemSize) :
    exec (.updbits addr len) s =
      .next (s.appendBits len.toNat (s.memRead addr.toNat (bytesOfBits len.toNat))).advancePc := by
  have hflag : s.bitpad = false := hbitpad
  have hc : firstError (checksOf (.updbits addr len) s) = none := by
    simp [checksOf, firstError_notCreated hphase, hflag, outOfRange, hrange]
  rw [exec_ok hc, effectOf]

/-- Settles O33: no byte is padded, and the bytes read are the same. -/
theorem updbitsOfWholeBytesIsUpdate : Obligations.UpdbitsOfWholeBytesIsUpdate := by
  intro addr len n s hphase hbitpad hlen hrange
  have hbytes : bytesOfBits len.toNat = n.toNat := by
    unfold bytesOfBits
    omega
  refine ⟨_, ?_, exec_update hphase hrange⟩
  rw [exec_updbits hphase hbitpad (by rwa [hbytes]), hbytes, State.appendBits, if_pos (by omega)]

/-- PadBits' mask, the bit just below the top `r` (43_ubi.md R215). -/
def padMask (r : Nat) : Byte := 1 <<< (7 - r)

theorem padByte_eq (r : Nat) (b : Byte) : padByte r b = (b &&& -padMask r) ||| padMask r := rfl

/-- The mask has one bit, and its negation keeps that bit and those above it. -/
theorem padMask_getLsbD : ∀ r < 8, ∀ k < 8,
    (padMask r).getLsbD k = decide (k = 7 - r) ∧ (-padMask r).getLsbD k = decide (7 - r ≤ k) := by decide

/-- Bit `k` of a padded byte: the byte's own among the top `r`, then a set bit, then zeros (43_ubi.md R215). -/
theorem padByte_getLsbD {r k : Nat} (hr : r < 8) (hk : k < 8) (b : Byte) :
    (padByte r b).getLsbD k = if 8 - r ≤ k then b.getLsbD k else decide (k = 7 - r) := by
  obtain ⟨hmask, hkept⟩ := padMask_getLsbD r hr k hk
  rw [padByte_eq, BitVec.getLsbD_or, BitVec.getLsbD_and, hmask, hkept]
  by_cases htop : 8 - r ≤ k
  · simp [htop, show 7 - r ≤ k by omega, show k ≠ 7 - r by omega]
  · by_cases hbit : k = 7 - r
    · simp [hbit, show ¬ 8 - r ≤ 7 - r by omega]
    · simp [htop, hbit, show ¬ 7 - r ≤ k by omega]

/-- After an appended byte the buffer is not empty (43_ubi.md R212). -/
theorem appendByte_fill_pos {s : State} (h : CreatedEngine s) (b : Byte) : 1 ≤ (s.appendByte b).fill.toNat := by
  have hroom := flushFull_fill_lt h
  have hblock := blockBytes_le h.size
  rw [State.appendByte, State.pushByte_fill, fill_add_one (by omega)]
  omega

theorem appendBytes_fill_pos {s : State} (h : CreatedEngine s) {bs : List Byte} (hbs : bs ≠ []) :
    1 ≤ (s.appendBytes bs).fill.toNat := by
  obtain ⟨init, last, rfl⟩ := (List.eq_nil_or_concat' bs).resolve_left hbs
  rw [State.appendBytes_append]
  exact appendByte_fill_pos (appendBytes_created h init) last

theorem padBits_setTweakBit_advancePc (s : State) (r bit : Nat) (v : Bool) :
    ((s.padBits r).setTweakBit bit v).advancePc =
      { s.advancePc with ibuf := (s.padBits r).ibuf, t1 := insertField s.t1 bit (BitVec.ofBool v) } := by cases s; rfl

/-- Settles O34: a legal state has FILL between 1 and Nb after a byte, so that PadBits finds the last byte in IBUF. -/
theorem updbitsPadsTheLastByte : Obligations.UpdbitsPadsTheLastByte := by
  intro addr len n s hphase hinv hbitpad hpartial hn hrange
  have hbytes : bytesOfBits len.toNat = n.toNat := by
    unfold bytesOfBits
    omega
  have hcreated : CreatedEngine s := createdEngine_of_engineInv hinv hphase
  have hne : s.phase ≠ .uninit := by simp [hphase]
  have hupdate := exec_update hne hrange
  have hupdbits := exec_updbits hne hbitpad (by rwa [hbytes])
  have hread : s.memRead addr.toNat n.toNat ≠ [] :=
    List.ne_nil_of_length_pos (by rw [State.memRead_length]; omega)
  have hpos := appendBytes_fill_pos hcreated hread
  have hafter := appendBytes_created hcreated (s.memRead addr.toNat n.toNat)
  rw [hbytes, State.appendBits, if_neg hpartial, padBits_setTweakBit_advancePc] at hupdbits
  generalize s.appendBytes (s.memRead addr.toNat n.toNat) = u at *
  have hlast : u.fill.toNat - 1 < 128 := by
    have hfill := hafter.fill
    have hblock := blockBytes_le hafter.size
    omega
  have hbuf (j : Nat) := getD_setIfInBounds u.ibuf
    (padByte (len.toNat % 8) (u.ibuf.toList.getD (u.fill.toNat - 1) 0)) 0 hlast j
  refine ⟨_, _, _, hupdate, hupdbits, hpos, fieldWritten_insertField u.t1 55 _ (by omega), fun j hj => ?other,
    fun k hk => ?last⟩
  case other => exact (hbuf j).trans (if_neg hj)
  case last =>
    rw [State.padBits_ibuf, State.advancePc_fill, hbuf, if_pos rfl]
    exact padByte_getLsbD (by omega) hk _

/-! ### UBIFIN -/

/-- The zero padding clears IBUF[FILL..Nb-1] and keeps the rest (43_ubi.md R213). -/
theorem zeroPad_getD {s : State} (hnw : s.nw ∈ stateSizes) (hfill : s.fill.toNat ≤ s.blockBytes) (j : Nat) :
    s.zeroPad.ibuf.toList.getD j 0 =
      if s.fill.toNat ≤ j ∧ j < s.blockBytes then 0 else s.ibuf.toList.getD j 0 := by
  have hblock := blockBytes_le hnw
  have hlen : (s.ibuf.toList.take s.fill.toNat).length = s.fill.toNat := by
    simp only [List.length_take, Vector.length_toList]
    omega
  by_cases hj : j < 128
  · rw [State.zeroPad_ibuf, putFirst_getD _ _ _ _ hj, List.length_append, hlen, List.length_replicate]
    by_cases hbuffered : j < s.fill.toNat
    · rw [if_pos (by omega), if_neg (by omega), List.getD_append _ _ _ _ (by omega)]
      simp [hbuffered]
    · by_cases hin : j < s.blockBytes
      · rw [if_pos (by omega), if_pos (by omega), List.getD_append_right _ _ _ _ (by omega)]
        simp
      · rw [if_neg (by omega), if_neg (by omega)]
  · rw [if_neg (by omega), getD_of_size_le _ (by omega), getD_of_size_le _ (by omega)]

/-- A field above the low half leaves the counter's part of T1. -/
theorem insertField_high_mod {n : Nat} (w : Word) {lo : Nat} (v : BitVec n) (h : 32 ≤ lo) :
    (insertField w lo v).toNat % 2 ^ 32 = w.toNat % 2 ^ 32 := by
  have hlow := congrArg BitVec.toNat (extract_insertField_other w lo v 0 32 (by omega) (.inl (by omega)))
  simpa using hlow

/-- AddPos leaves each bit of T1[63:32] (41_tweak.md R154). -/
theorem addPosition_getLsbD_high (n : Nat) (t0 t1 : Word) {i : Nat} (h : 32 ≤ i) :
    (addPosition n t0 t1).2.getLsbD i = t1.getLsbD i := by
  by_cases hi : i < 64
  · rw [addPosition, insertField_getLsbD _ _ _ _ hi, if_neg (by omega)]
  · rw [BitVec.getLsbD_of_ge _ _ (by omega), BitVec.getLsbD_of_ge _ _ (by omega)]

/-- Bit `i` of T1 with one flag set. -/
theorem insertField_set_getLsbD (w : Word) {bit : Nat} (hbit : bit < 64) (i : Nat) :
    (insertField w bit (BitVec.ofBool true)).getLsbD i = (decide (i = bit) || w.getLsbD i) := by
  by_cases hi : i < 64
  · rw [insertField_getLsbD _ _ _ _ hi]
    by_cases heq : i = bit
    · simp [heq]
    · rw [if_neg (by omega)]
      simp [heq]
  · rw [BitVec.getLsbD_of_ge _ _ (by omega), BitVec.getLsbD_of_ge _ _ (by omega)]
    simp [show i ≠ bit by omega]

/-- The state that UBIFIN transforms: the padded block, under FINAL (43_ubi.md R213). -/
def finalBlock (s : State) : State :=
  { s with ibuf := s.zeroPad.ibuf, t1 := insertField s.t1 63 (BitVec.ofBool true) }

theorem finish_advancePc (s : State) :
    s.finish.advancePc = { s with
      chain := ((finalBlock s).processBlock s.fill.toNat).chain
      t0 := (addPosition s.fill.toNat s.t0 (finalBlock s).t1).1
      t1 := (addPosition s.fill.toNat s.t0 (finalBlock s).t1).2
      ibuf := s.zeroPad.ibuf, fill := 0, pc := s.pc + 8 } := by
  show State.advancePc { (finalBlock s).processBlock s.fill.toNat with fill := 0 } = _
  rw [processBlock_eq]
  rfl

/-- Settles O35: UBIFIN is one transform of the padded block under FINAL, by the bytes buffered. -/
theorem ubifinTransformsThePaddedBlock : Obligations.UbifinTransformsThePaddedBlock := by
  intro s hphase hnw hfill
  have hc : firstError (checksOf .ubifin s) = none := firstError_notCreated hphase []
  obtain ⟨hcounter, -⟩ := addPosition_spec s.fill.toNat s.t0 (finalBlock s).t1
  refine ⟨_, _, _, _, ?_, zeroPad_getD hnw hfill, ?_, fun i hi => ?_,
    processBlock_firstWordsAre (finalBlock s) s.fill.toNat⟩
  · rw [exec_ok hc, effectOf, finish_advancePc]
    rfl
  · rw [← insertField_high_mod s.t1 (BitVec.ofBool true) (show 32 ≤ 63 by omega)]
    exact hcounter
  · rw [← insertField_set_getLsbD s.t1 (show 63 < 64 by omega)]
    exact addPosition_getLsbD_high s.fill.toNat s.t0 (finalBlock s).t1 hi

end Sys2Proof.Proofs

/-! PROOFS. The output stage (44_output.md R250 to R255): the digest byte by byte, and what DOFINAL leaves. -/

namespace Sys2Proof.Proofs

open Sys2Proof.Machine Sys2Proof.Claims

/-! ### Blocks of one length, joined -/

theorem length_flatMap_blocks {α : Type} {f : Nat → List α} {b : Nat} (hf : ∀ j, (f j).length = b) (n : Nat) :
    ((List.range n).flatMap f).length = n * b := by
  simp [List.length_flatMap, hf]

/-- Entry `k` of joined blocks of length `b` is entry `k mod b` of block `k / b` (44_output.md R252). -/
theorem getD_flatMap_blocks {α : Type} {f : Nat → List α} {b : Nat} (hf : ∀ j, (f j).length = b) (d : α) {n k : Nat}
    (hk : k < n * b) : ((List.range n).flatMap f).getD k d = (f (k / b)).getD (k % b) d := by
  induction n with
  | zero => omega
  | succ n ih =>
    have hlen := length_flatMap_blocks hf n
    rw [Nat.succ_mul] at hk
    rw [List.range_succ, List.flatMap_append, List.flatMap_singleton]
    by_cases hfront : k < n * b
    · rw [List.getD_append _ _ _ _ (hlen ▸ hfront), ih hfront]
    · obtain ⟨i, rfl⟩ : ∃ i, k = i + n * b := ⟨k - n * b, by omega⟩
      have hi : i < b := by omega
      have hquot : (i + n * b) / b = n := by
        rw [Nat.add_mul_div_right _ _ (by omega), Nat.div_eq_of_lt hi, Nat.zero_add]
      have hrem : (i + n * b) % b = i := by rw [Nat.add_mul_mod_self_right, Nat.mod_eq_of_lt hi]
      rw [List.getD_append_right _ _ _ _ (by omega), hlen, Nat.add_sub_cancel, hquot, hrem]

/-! ### The digest -/

/-- The model's output block is that of R251, its words written out as R63 does. -/
theorem outBlock_eq_outputBlock (nw : Nat) (g : List Word) (ctr : Nat) : outBlock nw g ctr = outputBlock nw g ctr :=
  leBytes_eq_bytesOfWords _

section
variable {nw : Nat} (hnw : BlockWords nw) (g : List Word)
include hnw

theorem outBlock_length (ctr : Nat) : (outBlock nw g ctr).length = 8 * nw := by
  have hpos : 4 ≤ nw := by omega
  rw [outBlock, leBytes_length, xorWords_length, threefish_length hnw, List.length_cons, List.length_replicate]
  omega

/-- Enough blocks are made for `ob` bytes: `ceil(ob / Nb)` of them (44_output.md R252). -/
theorem le_blockCount_mul (ob : Nat) : ob ≤ (ob + 8 * nw - 1) / (8 * nw) * (8 * nw) := by
  have hpos : 4 ≤ nw := by omega
  have hdiv := Nat.div_add_mod' (ob + 8 * nw - 1) (8 * nw)
  have hrem := Nat.mod_lt (ob + 8 * nw - 1) (show 8 * nw > 0 by omega)
  omega

/-- The digest has exactly the bytes that OUTBITS asks for (44_output.md R250). -/
theorem digest_length (ob : Nat) : (digest nw g ob).length = ob := by
  rw [digest, List.length_take, length_flatMap_blocks (outBlock_length hnw g)]
  exact Nat.min_eq_left (le_blockCount_mul hnw ob)

/-- Byte `k` of the digest is byte `k mod Nb` of output block `k / Nb` (44_output.md R252, R253). -/
theorem digest_getD {ob k : Nat} (hk : k < ob) :
    (digest nw g ob).getD k 0 = (outputBlock nw g (k / (8 * nw))).getD (k % (8 * nw)) 0 := by
  have hmade := le_blockCount_mul hnw ob
  rw [← outBlock_eq_outputBlock, ← getD_flatMap_blocks (outBlock_length hnw g) 0 (Nat.lt_of_lt_of_le hk hmade)]
  simp [digest, List.getD_eq_getElem?_getD, List.getElem?_take_of_lt hk]
end

/-! ### DOFINAL -/

/-- DOFINAL's writes at its end: the stored digest, and a Message restart under CFGVAL (44_output.md R254, R255). -/
theorem finalize_advancePc (s : State) (a : Nat) :
    (s.finalize a).advancePc = { s with
      dmem := s.dmem.writeBytes a (messageDigest s)
      chain := putFirst (takeFirst s.words s.cfgval) s.finish.chain
      t0 := 0, t1 := messageT1, ibuf := s.zeroPad.ibuf, fill := 0, phase := .accum, pc := s.pc + 8 } := by
  cases s; rfl

/-- Settles O36: DOFINAL is UBIFIN's transform, one store of the digest under the chaining value it leaves, and a restart
from CFGVAL. -/
theorem dofinalStoresTheDigestAndRestarts : Obligations.DofinalStoresTheDigestAndRestarts := by
  intro addr s hphase hnw hwf hrange
  have hfin : firstError (checksOf .ubifin s) = none := firstError_notCreated hphase []
  have hout : firstError (checksOf (.dofinal addr) s) = none := rangeChecks_pass hphase hrange
  have hsize : BlockWords s.nw.toNat := blockWords_of_stateSizes hnw
  have hlen : (messageDigest s).length = (s.outbits.toNat + 7) / 8 := digest_length hsize s.finish.chainWords _
  have hbuf : s.finish.advancePc.ibuf = s.zeroPad.ibuf := by rw [finish_advancePc]
  have hchain : chainOf s.finish.advancePc = s.finish.chainWords := rfl
  obtain ⟨hbytes, houtside⟩ := storedAt_writeBytes hwf addr.toNat (messageDigest s)
  rw [hlen] at hbytes houtside
  refine ⟨s.finish.advancePc, _, _, exec_ok hfin, ?_, firstWordsAre_putFirst _ s.finish.chain, fun k hk => ?_, houtside⟩
  · rw [exec_ok hout, effectOf, finalize_advancePc, hbuf]
    rfl
  · rw [hbytes k hk, hchain]
    exact digest_getD hsize s.finish.chainWords hk

end Sys2Proof.Proofs

/-! PROOFS. The MAC key command (45_mac.md R270 to R274): MACKEY as the commands it stands for, and what it leaves under an
empty key and after any earlier state. -/

namespace Sys2Proof.Proofs

open Sys2Proof.Machine Sys2Proof.Claims

/-! ### No effect reads PC -/

section
variable (p : Addr) (s : State)

theorem finish_withPc : (withPc p s).finish = withPc p s.finish := by cases s; rfl

theorem initNormal_withPc : (withPc p s).initNormal = withPc p s.initNormal := by cases s; rfl

theorem genConfig_withPc (key : List Word) : (withPc p s).genConfig key = withPc p (s.genConfig key) := by
  cases s; rfl

theorem appendBits_withPc (l : Nat) (bs : List Byte) :
    (withPc p s).appendBits l bs = withPc p (s.appendBits l bs) := by
  unfold State.appendBits
  rw [appendBytes_withPc, apply_ite (withPc p)]
  rfl

theorem initMode_withPc (a : BitVec 8) : (withPc p s).initMode a = withPc p (s.initMode a) := by
  unfold State.initMode
  simp only [apply_ite (withPc p)]
  rfl

theorem keyMac_withPc (key : List Byte) : (withPc p s).keyMac key = withPc p (s.keyMac key) := by
  have hstart : (withPc p s).startKeyHash = withPc p s.startKeyHash := by cases s; rfl
  unfold State.keyMac
  simp only [hstart, appendBytes_withPc, finish_withPc, genConfig_withPc, initNormal_withPc, apply_ite (withPc p)]
  rfl

theorem memWrite_withPc (a : Nat) (bs : List Byte) : (withPc p s).memWrite a bs = withPc p (s.memWrite a bs) := rfl

theorem finalize_withPc (a : Nat) : (withPc p s).finalize a = withPc p (s.finalize a) := by cases s; rfl

theorem checksOf_withPc (i : Instr) : checksOf i (withPc p s) = checksOf i s := by cases i <;> rfl

/-- A command never reads PC (46_sequencer.md R290). -/
theorem effectOf_withPc (i : Instr) : effectOf i (withPc p s) = withPc p (effectOf i s) := by
  cases i with
  | gencfg a =>
    rw [effectOf_gencfg, effectOf_gencfg]
    exact genConfig_withPc p s _
  | sttweak addr _ => exact memWrite_withPc p s addr.toNat (leBytes [s.t0, s.t1])
  | mackey addr len => exact keyMac_withPc p s (s.memRead addr.toNat len.toNat)
  | init a => exact initMode_withPc p s a
  | update addr len => exact appendBytes_withPc p s (s.memRead addr.toNat len.toNat)
  | updbits addr len => exact appendBits_withPc p s len.toNat (s.memRead addr.toNat (bytesOfBits len.toNat))
  | ubifin => exact finish_withPc p s
  | dofinal addr => exact finalize_withPc p s addr.toNat
  | _ => cases s; rfl

end

/-- A run takes each command's effect in turn, at some PC. -/
theorem runAll_cons_withPc {i : Instr} {s t : State} (hc : firstError (checksOf i s) = none) (ht : effectOf i s = t)
    (p : Addr) (is : List Instr) : ∃ q, runAll (i :: is) (withPc p s) = runAll is (withPc q t) := by
  refine ⟨p + 8, runAll_cons ?_ is⟩
  rw [exec_ok ((checksOf_withPc p s i).symm ▸ hc), effectOf_withPc, ht]
  rfl

/-! ### MACKEY as the commands it stands for -/

theorem mackeyChecks_pass {addr len : Addr} {s : State} (hphase : s.phase ≠ .uninit) (htree : s.cfgstr[2] = 0)
    (hrange : addr.toNat + len.toNat ≤ s.cfg.dmemSize) : firstError (checksOf (.mackey addr len) s) = none := by
  simp [checksOf, firstError_notCreated hphase, treeConfigured, htree, outOfRange, hrange]

theorem exec_mackey {addr len : Addr} {s : State} (hphase : s.phase ≠ .uninit) (htree : s.cfgstr[2] = 0)
    (hrange : addr.toNat + len.toNat ≤ s.cfg.dmemSize) :
    exec (.mackey addr len) s = .next (s.keyMac (s.memRead addr.toNat len.toNat)).advancePc := by
  rw [exec_ok (mackeyChecks_pass hphase htree hrange), effectOf]

theorem memRead_eq_nil_iff (s : State) (a n : Nat) : s.memRead a n = [] ↔ n = 0 := by
  rw [← List.length_eq_zero_iff, State.memRead_length]

/-- The key's UBI call (45_mac.md R270). -/
def keyHash (s : State) (key : List Byte) : State := (s.startKeyHash.appendBytes key).finish

theorem keyMac_nil (s : State) : s.keyMac [] = (s.genConfig s.zeroKey).initNormal := rfl

theorem keyMac_of_ne_nil (s : State) {key : List Byte} (h : key ≠ []) :
    s.keyMac key = ((keyHash s key).genConfig (keyHash s key).chainWords).initNormal := if_neg h

/-- INIT zeroed with its Message tweak replaced by TWSTART key is the start of the key's UBI call (45_mac.md R270). -/
theorem startType_restartWith_zeroKey (s : State) : (s.restartWith s.zeroKey).startType 0 = s.startKeyHash := by
  cases s; rfl

/-- GENCFG zero and INIT normal leave what MACKEY leaves with an empty key (45_mac.md R274). -/
theorem runAll_plainConfig {s : State} (hphase : s.phase ≠ .uninit) (htree : s.cfgstr[2] = 0) :
    ∃ p, runAll [.gencfg 0, .init 0] s = some (withPc p (s.keyMac [])) := by
  have hderive : firstError (checksOf (.gencfg 0) s) = none := gencfgChecks_pass hphase htree (by decide)
  have hrestart : firstError (checksOf (.init 0) (s.genConfig s.zeroKey)) = none :=
    initChecks_pass (by simpa using hphase) (by decide) rfl
  obtain ⟨p₁, hrun₁⟩ := runAll_cons_withPc hderive (effectOf_gencfg 0 s) s.pc [.init 0]
  obtain ⟨p₂, hrun₂⟩ := runAll_cons_withPc hrestart rfl p₁ []
  exact ⟨p₂, hrun₁.trans hrun₂⟩

/-- The five commands of R270 and R271 leave what MACKEY leaves with a key. -/
theorem runAll_keyedConfig {addr len : Addr} {s : State} (hphase : s.phase ≠ .uninit) (htree : s.cfgstr[2] = 0)
    (hrange : addr.toNat + len.toNat ≤ s.cfg.dmemSize) {key : List Byte}
    (hread : s.memRead addr.toNat len.toNat = key) (hkey : key ≠ []) :
    ∃ p, runAll [.init 1, .twstart 0, .update addr len, .ubifin, .init 3] s = some (withPc p (s.keyMac key)) := by
  have hzeroed : firstError (checksOf (.init 1) s) = none := initChecks_pass hphase (by decide) rfl
  have hkeyType : firstError (checksOf (.twstart 0) (s.restartWith s.zeroKey)) = none :=
    firstError_notCreated (by simpa using hphase) _
  have hupdate : firstError (checksOf (.update addr len) s.startKeyHash) = none :=
    rangeChecks_pass (by simpa using hphase) (by simpa using hrange)
  have hfinish : firstError (checksOf .ubifin (s.startKeyHash.appendBytes key)) = none :=
    firstError_notCreated (by simpa using hphase) []
  have hchained : firstError (checksOf (.init 3) (keyHash s key)) = none :=
    initChecks_pass (by simpa [keyHash] using hphase) (by decide) (by simp [keyHash, treeConfigured, htree])
  have happend : effectOf (.update addr len) s.startKeyHash = s.startKeyHash.appendBytes key := by
    rw [← hread]
    rfl
  obtain ⟨p₁, hrun₁⟩ := runAll_cons_withPc hzeroed rfl s.pc [.twstart 0, .update addr len, .ubifin, .init 3]
  obtain ⟨p₂, hrun₂⟩ :=
    runAll_cons_withPc hkeyType (startType_restartWith_zeroKey s) p₁ [.update addr len, .ubifin, .init 3]
  obtain ⟨p₃, hrun₃⟩ := runAll_cons_withPc hupdate happend p₂ [.ubifin, .init 3]
  obtain ⟨p₄, hrun₄⟩ := runAll_cons_withPc hfinish rfl p₃ [.init 3]
  obtain ⟨p₅, hrun₅⟩ := runAll_cons_withPc hchained rfl p₄ []
  rw [keyMac_of_ne_nil s hkey]
  exact ⟨p₅, hrun₁.trans (hrun₂.trans (hrun₃.trans (hrun₄.trans hrun₅)))⟩

/-- Settles O38: for each of the two forms of key, the run ends in MACKEY's effect at some PC. -/
theorem mackeyIsTheKeyUbiCallThenChainedConfig : Obligations.MackeyIsTheKeyUbiCallThenChainedConfig := by
  intro addr len s hphase htree hrange
  suffices hrun : ∃ p, runAll (if len = 0 then [.gencfg 0, .init 0]
      else [.init 1, .twstart 0, .update addr len, .ubifin, .init 3]) s =
      some (withPc p (s.keyMac (s.memRead addr.toNat len.toNat))) by
    obtain ⟨p, hrun⟩ := hrun
    exact ⟨_, _, exec_mackey hphase htree hrange, by simp, hrun, rfl⟩
  by_cases hlen : len = 0
  · subst hlen
    exact runAll_plainConfig hphase htree
  · rw [if_neg hlen]
    refine runAll_keyedConfig hphase htree hrange rfl fun hnil => hlen ?_
    exact BitVec.eq_of_toNat_eq ((memRead_eq_nil_iff s addr.toNat len.toNat).1 hnil)

/-! ### What MACKEY leaves -/

/-- A derivation and a Message restart, in a file whose words from Nw on are 0: STATE becomes the derived CFGVAL (42_config.md
R184, 43_ubi.md R214). -/
theorem genConfig_initNormal_eq {s : State} (hchain : ZeroFrom s.words s.chain) (key : List Word) :
    (s.genConfig key).initNormal = { s with
      cfgval := (s.genConfig key).cfgval, chain := (s.genConfig key).cfgval, t0 := 0, t1 := messageT1, fill := 0 } := by
  have hstate : putFirst (takeFirst s.words (s.genConfig key).cfgval) s.chain = (s.genConfig key).cfgval :=
    putFirst_takeFirst_of_zeroFrom (genConfig_cfgval_zeroFrom s key) hchain
  generalize hv : (s.genConfig key).cfgval = v at *
  rw [genConfig_eq, hv]
  show ({ s with
    cfgval := v, chain := putFirst (takeFirst s.words v) s.chain, t0 := 0, t1 := messageT1, fill := 0 } : State) = _
  rw [hstate]

/-- The derivation reads the state size and the configuration string alone (42_config.md R182 to R184). -/
theorem genConfig_cfgval_congr {s s' : State} (hnw : s'.nw = s.nw) (hcfgstr : s'.cfgstr = s.cfgstr) (key : List Word) :
    (s'.genConfig key).cfgval = (s.genConfig key).cfgval := by
  simp [State.configBlock, State.words, hnw, hcfgstr]

/-! ### The empty key after CREATE -/

theorem createChecks_of_expectedError {a : BitVec 8} {imm : BitVec 32} {s : State}
    (h : expectedError (.create a imm) s = none) : firstError (checksOf (.create a imm) s) = none := by
  simp only [expectedError, runsUncreated, Bool.not_true, Bool.false_and, Bool.false_eq_true, if_false] at h
  split_ifs at h with hsize himm
  have ha : a ∈ stateSizes := by
    simp only [stateSizes, List.mem_cons, List.not_mem_nil]
    tauto
  exact createChecks_pass ha (by omega) (by omega) s

/-- The plain derivation and its restart, done twice, leave what they leave once. -/
theorem keyMac_nil_idempotent {s : State} (h : CreatedEngine s) : (s.keyMac []).keyMac [] = s.keyMac [] := by
  have hcfgval : ((s.keyMac []).genConfig (s.keyMac []).zeroKey).cfgval = (s.genConfig s.zeroKey).cfgval :=
    genConfig_cfgval_congr (by simp [keyMac_nil]) (by simp [keyMac_nil]) s.zeroKey
  have honce := genConfig_initNormal_eq h.chain s.zeroKey
  rw [keyMac_nil (s.keyMac []), genConfig_initNormal_eq (keyMac_created h []).chain, hcfgval, keyMac_nil, honce]

theorem createEngine_eq_keyMac_nil (s : State) (a : BitVec 8) (imm : BitVec 32) :
    s.createEngine a imm = (blankEngine a imm s).keyMac [] := createEngine_eq s a imm

/-- Settles O39: CREATE itself ends in the plain derivation and its restart, which MACKEY does once more. -/
theorem emptyMacKeyGivesThePlainHash : Obligations.EmptyMacKeyGivesThePlainHash := by
  intro a imm addr s t hnone hrange hcreate
  have hc := createChecks_of_expectedError hnone
  obtain ⟨ha, himm⟩ := create_operands_of_checks hc
  have hsame : (s.createEngine a imm).keyMac [] = s.createEngine a imm := by
    rw [createEngine_eq_keyMac_nil, keyMac_nil_idempotent (blankEngine_created ha himm s)]
  rw [exec_ok hc] at hcreate
  obtain rfl := Host.Outcome.next.inj hcreate
  have hphase : (effectOf (.create a imm) s).advancePc.phase ≠ .uninit := by simp [effectOf, State.createEngine]
  have htree : (effectOf (.create a imm) s).advancePc.cfgstr[2] = 0 := by
    simp [effectOf, State.createEngine, defaultConfig]
  rw [exec_mackey hphase htree (by simpa [effectOf, State.createEngine] using hrange)]
  show Host.Outcome.next ((withPc (s.pc + 8) (s.createEngine a imm)).keyMac []).advancePc = _
  rw [keyMac_withPc, hsame]
  rfl

/-! ### Keys do not chain -/

/-- The UBI engine alone: the state size and the hash in progress, every other register at reset. -/
def ubiEngine (s : State) : State :=
  { State.reset with nw := s.nw, chain := s.chain, t0 := s.t0, t1 := s.t1, ibuf := s.ibuf, fill := s.fill }

theorem flushFull_ubiEngine (s : State) : (ubiEngine s).flushFull = ubiEngine s.flushFull := by
  unfold State.flushFull
  rw [apply_ite ubiEngine]
  rfl

/-- Appending bytes uses the UBI engine alone. -/
theorem appendBytes_ubiEngine (s : State) (bs : List Byte) :
    (ubiEngine s).appendBytes bs = ubiEngine (s.appendBytes bs) := by
  induction bs generalizing s with
  | nil => rfl
  | cons b bs ih =>
    have hbyte : (ubiEngine s).appendByte b = ubiEngine (s.appendByte b) := by
      rw [State.appendByte, flushFull_ubiEngine]
      rfl
    rw [State.appendBytes_cons, hbyte, ih, State.appendBytes_cons]

theorem finish_ubiEngine (s : State) : (ubiEngine s).finish = ubiEngine s.finish := by cases s; rfl

/-- The zero key over a file whose words from Nw on are 0 leaves only zeros. -/
theorem startKeyHash_chain_eq_zero {s : State} (h : CreatedEngine s) :
    s.startKeyHash.chain = Vector.replicate 16 0 := by
  have hsize : BlockWords s.words := blockWords_of_stateSizes h.size
  have hzero : s.zeroKey = takeFirst s.words (Vector.replicate 16 0) := by
    rw [takeFirst, Vector.toList_replicate, List.take_replicate, Nat.min_eq_left (by omega)]
    rfl
  rw [State.startKeyHash_chain, hzero]
  exact putFirst_takeFirst_of_zeroFrom (zeroFrom_replicate _ 16) h.chain

/-- The key's UBI call starts from the same UBI engine after any earlier state, but for stale bytes (45_mac.md R270). -/
theorem startKeyHash_sameButStaleBytes {s s' : State} (h : CreatedEngine s) (h' : CreatedEngine s') (hnw : s'.nw = s.nw) :
    sameButStaleBytes (ubiEngine s.startKeyHash) (ubiEngine s'.startKeyHash) := by
  have hsame : ubiEngine s'.startKeyHash = withIbuf (ubiEngine s.startKeyHash) s'.ibuf := by
    unfold ubiEngine
    rw [startKeyHash_chain_eq_zero h, startKeyHash_chain_eq_zero h', State.startKeyHash_nw, hnw]
    rfl
  rw [hsame]
  exact sameButStaleBytes_of_fill_zero rfl s'.ibuf

/-- The hash of a key depends on the state size alone beside the key. -/
theorem keyHash_chainWords_congr {s s' : State} (h : CreatedEngine s) (h' : CreatedEngine s') (hnw : s'.nw = s.nw)
    (key : List Byte) : (keyHash s' key).chainWords = (keyHash s key).chainWords := by
  have hstale : sameButStaleBytes (ubiEngine (keyHash s key)) (ubiEngine (keyHash s' key)) := by
    simp only [keyHash, ← finish_ubiEngine, ← appendBytes_ubiEngine]
    exact finish_keepsStale (appendBytes_keepsStale key (startKeyHash_sameButStaleBytes h h' hnw))
  obtain ⟨hequal, -⟩ := hstale
  have hwords := congrArg State.chainWords hequal
  exact hwords

/-- The words that MACKEY derives CFGVAL under (45_mac.md R271, R274). -/
def macConfigKey (s : State) (key : List Byte) : List Word :=
  if key = [] then s.zeroKey else (keyHash s key).chainWords

/-- MACKEY leaves the derived value in CFGVAL and STATE, and a Message restart (45_mac.md R273). -/
theorem keyMac_registers {s : State} (h : CreatedEngine s) (key : List Byte) :
    (s.keyMac key).cfgval = (s.genConfig (macConfigKey s key)).cfgval ∧
    (s.keyMac key).chain = (s.genConfig (macConfigKey s key)).cfgval ∧
    (s.keyMac key).t0 = 0 ∧ (s.keyMac key).t1 = messageT1 ∧ (s.keyMac key).fill = 0 := by
  by_cases hkey : key = []
  · rw [macConfigKey, if_pos hkey, hkey, keyMac_nil, genConfig_initNormal_eq h.chain]
    exact ⟨rfl, rfl, rfl, rfl, rfl⟩
  · have hhash : CreatedEngine (keyHash s key) := finish_created (appendBytes_created (startKeyHash_created h) key)
    have hcfgval := genConfig_cfgval_congr (s := s) (s' := keyHash s key) (by simp [keyHash]) (by simp [keyHash])
      (keyHash s key).chainWords
    rw [macConfigKey, if_neg hkey, keyMac_of_ne_nil s hkey, genConfig_initNormal_eq hhash.chain, hcfgval]
    exact ⟨rfl, rfl, rfl, rfl, rfl⟩

theorem macConfigKey_congr {s s' : State} (h : CreatedEngine s) (h' : CreatedEngine s') (hnw : s'.nw = s.nw)
    (key : List Byte) : macConfigKey s' key = macConfigKey s key := by
  have hzero : s'.zeroKey = s.zeroKey := by simp only [State.zeroKey, State.words, hnw]
  rw [macConfigKey, macConfigKey, hzero, keyHash_chainWords_congr h h' hnw]

theorem memRead_congr {s s' : State} {a n : Nat} (h : ∀ j, j < n → s'.dmem.read (a + j) = s.dmem.read (a + j)) :
    s'.memRead a n = s.memRead a n := List.map_congr_left fun j hj => h j (List.mem_range.1 hj)

/-- Settles O40: both states give the derivation the same key and string, and the rest of what MACKEY leaves is constant. -/
theorem mackeyForgetsTheEarlierState : Obligations.MackeyForgetsTheEarlierState := by
  intro addr len s s' hphase hphase' hinv hinv' hnw hcfgstr htree hbytes hrange hrange'
  have h := createdEngine_of_engineInv hinv hphase
  have h' := createdEngine_of_engineInv hinv' hphase'
  refine ⟨_, _, exec_mackey (by simp [hphase]) htree hrange,
    exec_mackey (by simp [hphase']) (by rw [hcfgstr]; exact htree) hrange', ?_⟩
  rw [memRead_congr hbytes]
  generalize s.memRead addr.toNat len.toNat = key
  obtain ⟨hcfgval, hchain, ht0, ht1, hfill⟩ := keyMac_registers h key
  obtain ⟨hcfgval', hchain', ht0', ht1', hfill'⟩ := keyMac_registers h' key
  have hvalue : (s'.genConfig (macConfigKey s' key)).cfgval = (s.genConfig (macConfigKey s key)).cfgval := by
    rw [macConfigKey_congr h h' hnw, genConfig_cfgval_congr hnw hcfgstr]
  exact ⟨by rw [State.advancePc_cfgval, State.advancePc_cfgval, hcfgval, hcfgval', hvalue],
    by rw [State.advancePc_chain, State.advancePc_chain, hchain, hchain', hvalue], ht0'.trans ht0.symm,
    ht1'.trans ht1.symm, hfill'.trans hfill.symm⟩

end Sys2Proof.Proofs

/-! PROOFS. The sequencer (46_sequencer.md R290 to R294): the fetch and what it runs, HALT and NOP, that no command branches or
reads PC, and GO. -/

namespace Sys2Proof.Proofs

open Sys2Proof.Machine Sys2Proof.Claims

/-! ### PC and the commands -/

theorem pc_add_eight_ne (p : Addr) : p + 8 ≠ p := by bv_omega

/-- No effect writes PC: it would be the same from every PC, and it follows the one it started from. -/
theorem effectOf_pc (i : Instr) (s : State) : (effectOf i s).pc = s.pc := by
  have hself : withPc s.pc s = s := rfl
  have hmoved := effectOf_withPc s.pc s i
  rw [hself] at hmoved
  rw [hmoved, withPc]

/-- Settles O10: the checks and the effect are the same at another PC, and an error is told from a completion by PC, which only
a completion moves. -/
theorem commandsNeverReadPc : Obligations.CommandsNeverReadPc := by
  intro i s p
  have hchecks := checksOf_withPc p s i
  cases hc : firstError (checksOf i s) with
  | some e =>
    refine ⟨s.takeError e (encode i), exec_error hc, ?_⟩
    rw [if_pos (State.takeError_pc s e (encode i))]
    exact exec_error (s := withPc p s) (hchecks.symm ▸ hc)
  | none =>
    have hmoves : (effectOf i s).advancePc.pc ≠ s.pc := by
      rw [State.advancePc_pc, effectOf_pc]
      exact pc_add_eight_ne s.pc
    refine ⟨(effectOf i s).advancePc, exec_ok hc, ?_⟩
    have hrun : exec i (withPc p s) = .next (withPc p (effectOf i s)).advancePc := by
      rw [exec_ok (hchecks.symm ▸ hc), effectOf_withPc]
    rw [if_neg hmoves]
    generalize effectOf i s = t at hrun ⊢
    exact hrun

/-! ### The fetch -/

/-- Settles O5: after the fetch the step is exec, a scheduled turn being used up first. -/
theorem stepRunsTheDecodedCommand : Obligations.StepRunsTheDecodedCommand := by
  intro s i hb hpc hd
  refine ⟨fun hturns => ?_, fun rest hturns => ?_⟩
  · rw [step_noTurn hturns, engineStep_runs hb hpc hd]
  · rw [step_engineTurn hturns]
    exact engineStep_runs (s := { s with turns := rest }) hb hpc hd

/-- Settles O6: the fetch fails before anything is decoded, so the error entry is all that the step does. -/
theorem fetchOutsideDmemTakesMemFault : Obligations.FetchOutsideDmemTakesMemFault := by
  intro s hturn hb hpc
  rw [step_sequencersTurn hturn, engineStep_pastDmem (s := turnUsed s) hb hpc]
  rfl

/-- What a step of the running sequencer can do: an error entry, or the effect of a command and the advance of PC. -/
theorem step_running_cases {s t : State} (hturn : sequencersTurn s) (hb : s.busy = true) (h : step s = .next t) :
    (∃ code w, t = errorEntry (turnUsed s) code w) ∨ ∃ i, t = (effectOf i (turnUsed s)).advancePc := by
  by_cases hpc : s.pc.toNat + 8 ≤ s.cfg.dmemSize
  · obtain ⟨hillegal, hlegal⟩ := everyFetchedWordRunsOrIsIllegal s hturn hb hpc
    cases hw : legalWord (wordAtAddr s.dmem s.pc.toNat) with
    | false => exact .inl ⟨_, _, Host.Outcome.next.inj (h.symm.trans (hillegal hw))⟩
    | true =>
      obtain ⟨i, -, hstep⟩ := hlegal hw
      rcases exec_cases (hstep.symm.trans h) with ⟨e, -, rfl⟩ | ⟨-, rfl⟩
      · exact .inl ⟨e.code, encode i, rfl⟩
      · exact .inr ⟨i, rfl⟩
  · have hfault := fetchOutsideDmemTakesMemFault s hturn hb (Nat.lt_of_not_le hpc)
    exact .inl ⟨_, _, Host.Outcome.next.inj (h.symm.trans hfault)⟩

/-- Settles O9: an error entry keeps PC, and after an effect, which keeps it too, PC only advances. -/
theorem noCommandBranches : Obligations.NoCommandBranches := by
  intro s t hturn hb h
  rcases step_running_cases hturn hb h with ⟨code, w, rfl⟩ | ⟨i, rfl⟩
  · exact .inr ⟨rfl, rfl, rfl⟩
  · refine .inl ?_
    rw [State.advancePc_pc, effectOf_pc]
    rfl

/-! ### HALT and NOP -/

/-- A well-formed command has one word. -/
theorem decode_eq_ok_iff_encode {i : Instr} (hwf : i.wellFormed = true) (w : Word) : decode w = .ok i ↔ w = encode i := by
  constructor
  · intro h
    exact (encodeOfDecodeIsTheWord w i h).1.symm
  · rintro rfl
    exact decodeOfEncodeIsTheCommand i hwf

/-- Under the opcodes of HALT and NOP every other field must be 0 (30_encoding.md R85). -/
theorem legalWord_haltOrNop_eq_false {w : Word} (hop : w.toNat % 2 ^ 8 ≤ 1) (hw : 1 < w.toNat) : legalWord w = false := by
  have hmem : w.toNat % 2 ^ 8 ∈ [0x00, 0x01, 0x2A] := by
    simp only [List.mem_cons]
    omega
  rw [← Bool.not_eq_true, legalWord, legalFields, if_pos hmem]
  simp only [Bool.and_eq_true, beq_iff_eq]
  omega

/-- Settles O8: each of the two has one word, neither has a check to fail, and other words of their opcodes are not legal. -/
theorem haltEndsTheRunAndNopOnlyAdvances : Obligations.HaltEndsTheRunAndNopOnlyAdvances := by
  refine ⟨fun w => ⟨decode_eq_ok_iff_encode rfl w, decode_eq_ok_iff_encode rfl w⟩, fun s => ⟨?_, ?_, ?_⟩⟩
  · exact exec_ok (i := .halt) firstError_nil
  · exact exec_ok (i := .nop) firstError_nil
  · intro hturn hb hpc hop hw
    exact (everyFetchedWordRunsOrIsIllegal s hturn hb hpc).1 (legalWord_haltOrNop_eq_false hop hw)

/-! ### GO -/

/-- A CTRL write that starts a run: the enables, then GO (46_sequencer.md R293). -/
theorem writeCtrl_go {s : State} {v : Word} (hreset : v.getLsbD 3 = false) (hgo : v.getLsbD 0 = true)
    (hb : s.busy = false) :
    s.writeCtrl v = ({ s with ieDone := v.getLsbD 1, ieErr := v.getLsbD 2 } : State).startRun := by
  have hstart : (v.getLsbD 0 && !s.busy) = true := by rw [hgo, hb]; rfl
  simp only [State.writeCtrl, hreset, hstart, Bool.false_eq_true, if_false, if_true]

/-- A CTRL write without GO, or with a GO that is ignored, writes the enables alone (10_state.md R32, 46_sequencer.md R293). -/
theorem writeCtrl_enables {s : State} {v : Word} (hreset : v.getLsbD 3 = false)
    (hgo : v.getLsbD 0 = false ∨ s.busy = true) :
    s.writeCtrl v = { s with ieDone := v.getLsbD 1, ieErr := v.getLsbD 2 } := by
  have hstay : (v.getLsbD 0 && !s.busy) = false := by
    rcases hgo with hgo | hb
    · rw [hgo, Bool.false_and]
    · rw [hb, Bool.not_true, Bool.and_false]
  simp only [State.writeCtrl, hreset, hstay, Bool.false_eq_true, if_false]

/-- Settles O48: the two clauses are the two CTRL writes without SRST. -/
theorem goStartsARunOnlyWhenIdle : Obligations.GoStartsARunOnlyWhenIdle := by
  intro s v rest h hreset
  have hctrl : step s = .next (({ s with turns := rest } : State).writeCtrl v) :=
    step_csrWrite h (by decide) (by decide)
  rw [hctrl]
  refine ⟨fun hgo hb => ?_, fun hgo => ?_⟩
  · rw [writeCtrl_go (s := { s with turns := rest }) hreset hgo hb]
    rfl
  · rw [writeCtrl_enables (s := { s with turns := rest }) hreset hgo]

end Sys2Proof.Proofs

/-! PROOFS. Exceptions, reset and hazards (60_exceptions.md R300 to R313, 70_reset_and_hazards.md R340 to R351): what is
reachable, what the resets leave, which error a command takes, how a run ends, what a host write during a run can touch, and
checkpoints. -/

namespace Sys2Proof.Proofs

open Sys2Proof.Machine Sys2Proof.Claims

/-! ### Every reachable state is legal -/

theorem legalState_step {s t : State} (h : LegalState s) (hstep : step s = .next t) : LegalState t where
  dmem := stepKeepsDmemLegal s t h.dmem hstep
  sequencer := stepKeepsTheSequencerLegal s t h.sequencer hstep
  engine := stepKeepsTheEngineLegal s t h.engine hstep

/-- At power-up every register already has the value that a reset gives it (70_reset_and_hazards.md R340). -/
theorem resetRegisters_of_powerUp {s : State} (h : PowerUp s) : s.resetRegisters = s := by
  rw [h.2]
  rfl

theorem legalState_of_powerUp {s : State} (h : PowerUp s) : LegalState s where
  dmem := h.1
  sequencer := resetRegisters_of_powerUp h ▸ resetRegisters_keepsSequencer s
  engine := resetRegisters_of_powerUp h ▸ resetRegisters_engineInv s

/-- Settles O47, by induction on the run: a power-up state is legal, and a step keeps each of the three invariants. -/
theorem everyReachableStateIsLegal : Obligations.EveryReachableStateIsLegal := by
  intro s h
  induction h with
  | powerUp h => exact legalState_of_powerUp h
  | step _ hstep ih => exact legalState_step ih hstep

/-! ### The resets -/

theorem powerUp_reset : PowerUp State.reset where
  left :=
    { cfgValid := by decide
      canonical := by decide
      inRange := by simp [State.reset] }
  right := rfl

/-- Settles O46: the state after reset is a power-up state, and it holds each of the listed values by its definition. -/
theorem resetStateIsIdleAndLegal : Obligations.ResetStateIsIdleAndLegal := by
  refine ⟨legalState_of_powerUp powerUp_reset, powerUp_reset, rfl, ?_⟩
  rintro s rfl
  and_intros <;> rfl

/-- A CTRL write with SRST is the reset alone (10_state.md R32). -/
theorem writeCtrl_reset {v : Word} (h : v.getLsbD 3 = true) (s : State) : s.writeCtrl v = s.resetRegisters := if_pos h

/-- Settles O49: the write reaches CTRL busy or idle, and SRST makes it the reset. -/
theorem softResetResetsEveryRegister : Obligations.SoftResetResetsEveryRegister := by
  intro s v rest h hreset
  have hctrl : step s = .next (({ s with turns := rest } : State).writeCtrl v) :=
    step_csrWrite h (by decide) (by decide)
  rw [hctrl, writeCtrl_reset hreset, resetRegisters_of_turnUsed]

/-! ### The idle sequencer -/

/-- Settles O7: both turns are the idle sequencer's, the scheduled one being used up first. -/
theorem idleSequencerChangesNothing : Obligations.IdleSequencerChangesNothing := by
  intro s hb
  refine ⟨fun hturns => ?_, fun rest hturns => ?_⟩
  · rw [step_noTurn hturns, engineStep_idle hb]
  · rw [step_engineTurn hturns]
    exact engineStep_idle (s := { s with turns := rest }) hb

/-! ### The error of a command -/

/-- Before a CREATE a command that needs an engine takes UNINITIALIZED before any other error (60_exceptions.md R303). -/
theorem firstError_uncreated {i : Instr} {s : State} (hwf : i.wellFormed = true) (hi : runsUncreated i = false)
    (hphase : s.phase = .uninit) : firstError (checksOf i s) = some .uninitialized := by
  cases i with
  | halt | nop | create => cases hi
  | gencfg | init | twflag =>
    simp_all [Instr.wellFormed, checksOf, illegalWhen, notCreated]
  | _ => simp [checksOf, notCreated, hphase]

/-- The error code of a list of checks is that of the first one that fails (60_exceptions.md R303). -/
theorem code_firstError_cons (b : Bool) (e : ErrorCode) (cs : List Check) :
    (firstError ((b, e) :: cs)).map ErrorCode.code = if b then some e.code else (firstError cs).map ErrorCode.code := by
  cases b <;> rfl

theorem code_rangeCheck (s : State) (addr : Addr) (n : Nat) :
    (firstError [outOfRange s addr n]).map ErrorCode.code =
      if decide (s.cfg.dmemSize < addr.toNat + n) then some 5 else none :=
  code_firstError_cons _ _ []

theorem code_lengthAndRangeChecks (s : State) (addr len : Addr) (n : Nat) :
    (firstError [lengthNot len n, outOfRange s addr n]).map ErrorCode.code =
      if len.toNat ≠ n then some 1 else if decide (s.cfg.dmemSize < addr.toNat + n) then some 5 else none := by
  rw [← code_rangeCheck, lengthNot, code_firstError_cons]
  simp only [bne_iff_ne]
  rfl

/-- IMM read as a signed number is not positive (30_encoding.md R84). -/
theorem toInt_nonpos_iff (imm : BitVec 32) : imm.toInt ≤ 0 ↔ imm.toNat = 0 ∨ 2 ^ 31 ≤ imm.toNat := by
  rw [BitVec.toInt_eq_toNat_cond]
  split <;> omega

/-- CREATE's row, in every PHASE (60_exceptions.md R304). -/
theorem expectedError_create (a : BitVec 8) (imm : BitVec 32) (s : State) :
    expectedError (.create a imm) s = (firstError (checksOf (.create a imm) s)).map ErrorCode.code := by
  simp [expectedError, runsUncreated, checksOf, apply_ite (Option.map ErrorCode.code), toInt_nonpos_iff, stateSizes,
    ErrorCode.code]

/-- In a created engine the row of the table is the command's own checks, in their order (60_exceptions.md R304). -/
theorem expectedError_created {i : Instr} {s : State} (hwf : i.wellFormed = true) (hi : runsUncreated i = false)
    (hphase : s.phase ≠ .uninit) : expectedError i s = (firstError (checksOf i s)).map ErrorCode.code := by
  have hcreated : (!runsUncreated i && s.phase == .uninit) = false := by simp [hphase]
  simp only [expectedError, hcreated, Bool.false_eq_true, if_false]
  cases i with
  | halt | nop | create => cases hi
  | setleaf | setfan | ubifin | twadd =>
    rw [checksOf, firstError_notCreated hphase]
    rfl
  | setver | setheight | twlevel =>
    rw [checksOf, firstError_notCreated hphase, code_firstError_cons]
    simp [ErrorCode.code]
  | twstart a =>
    rw [checksOf, firstError_notCreated hphase, code_firstError_cons]
    simp only [← mem_blockTypes_iff]
    by_cases ha : a ∈ blockTypes <;> simp [ha, ErrorCode.code]
  | setschema addr len | ldstate addr len | ststate addr len | tfkey addr len | sttweak addr len | tftweak addr len =>
    rw [checksOf, firstError_notCreated hphase]
    exact (code_lengthAndRangeChecks s addr len _).symm
  | update addr | dofinal addr | tfenc addr =>
    rw [checksOf, firstError_notCreated hphase]
    exact (code_rangeCheck s addr _).symm
  | updbits addr | mackey addr =>
    rw [checksOf, firstError_notCreated hphase, code_firstError_cons, code_rangeCheck]
    rfl
  | gencfg a =>
    have ha : decide (1 < a.toNat) = false := by simpa [Instr.wellFormed] using hwf
    rw [checksOf, illegalWhen, ha, code_firstError_cons, firstError_notCreated hphase, code_firstError_cons]
    rfl
  | init a =>
    have ha : decide (3 < a.toNat) = false := by simpa [Instr.wellFormed] using hwf
    rw [checksOf, illegalWhen, ha, code_firstError_cons, firstError_notCreated hphase, code_firstError_cons]
    simp [treeConfigured, ErrorCode.code]
  | twflag a imm =>
    have hlegal : (decide (2 < a.toNat) || decide (1 < imm.toNat)) = false := by simpa [Instr.wellFormed] using hwf
    rw [checksOf, illegalWhen, hlegal, code_firstError_cons, firstError_notCreated hphase]
    rfl

/-- The error that the table R304 names is that of the first failing check (60_exceptions.md R303, R304). -/
theorem expectedError_eq_firstError {i : Instr} (hwf : i.wellFormed = true) (s : State) :
    expectedError i s = (firstError (checksOf i s)).map ErrorCode.code := by
  cases hi : runsUncreated i with
  | true =>
    cases i with
    | halt | nop => rfl
    | create a imm => exact expectedError_create a imm s
    | _ => cases hi
  | false =>
    by_cases hphase : s.phase = .uninit
    · rw [firstError_uncreated hwf hi hphase]
      simp [expectedError, hi, hphase, ErrorCode.code]
    · exact expectedError_created hwf hi hphase

/-- No effect of a command writes the error record (60_exceptions.md R302). -/
theorem effectOf_errorRecord (i : Instr) (s : State) :
    (effectOf i s).err = s.err ∧ (effectOf i s).errcode = s.errcode ∧ (effectOf i s).errpc = s.errpc ∧
      (effectOf i s).errcmd = s.errcmd := by
  cases i with
  | gencfg a => simp [effectOf_gencfg]
  | _ => simp [effectOf]

/-- Settles O13: the table's answer is the first failing check's, which decides between the error entry and the effect. -/
theorem errorsAreTheTablesAndChangeOnlyTheRecord : Obligations.ErrorsAreTheTablesAndChangeOnlyTheRecord := by
  intro i s hwf
  rw [expectedError_eq_firstError hwf]
  cases hc : firstError (checksOf i s) with
  | some e => exact exec_error hc
  | none => exact ⟨(effectOf i s).advancePc, exec_ok hc, congrArg (· + 8) (effectOf_pc i s), effectOf_errorRecord i s⟩

/-! ### How a run ends -/

/-- `step_running_cases` with what the end of a run turns on: the kind of the error, and that the command is the one at PC
(46_sequencer.md R290). -/
theorem step_running_fetched {s t : State} (hturn : sequencersTurn s) (hb : s.busy = true) (h : step s = .next t) :
    (∃ e w, t = (turnUsed s).takeError e w) ∨
      ∃ i, decode (wordAtAddr s.dmem s.pc.toNat) = .ok i ∧ t = (effectOf i (turnUsed s)).advancePc := by
  by_cases hpc : s.pc.toNat + 8 ≤ s.cfg.dmemSize
  · obtain ⟨hillegal, hlegal⟩ := everyFetchedWordRunsOrIsIllegal s hturn hb hpc
    cases hw : legalWord (wordAtAddr s.dmem s.pc.toNat) with
    | false => exact .inl ⟨.illegalCommand, _, Host.Outcome.next.inj (h.symm.trans (hillegal hw))⟩
    | true =>
      obtain ⟨i, hi, hstep⟩ := hlegal hw
      rcases exec_cases (hstep.symm.trans h) with ⟨e, -, rfl⟩ | ⟨-, rfl⟩
      · exact .inl ⟨e, encode i, rfl⟩
      · exact .inr ⟨i, hi, rfl⟩
  · have hfault := fetchOutsideDmemTakesMemFault s hturn hb (Nat.lt_of_not_le hpc)
    exact .inl ⟨.memFault, 0, Host.Outcome.next.inj (h.symm.trans hfault)⟩

theorem errorCode_ne_zero (e : ErrorCode) : e.code ≠ 0 := by cases e <;> decide

/-- Settles O11: an error entry records its nonzero code, and of the commands only HALT, whose word is 0, drops BUSY. -/
theorem busyFallsWithDoneOrErr : Obligations.BusyFallsWithDoneOrErr := by
  intro s t hturn hb h hidle
  rcases step_running_fetched hturn hb h with ⟨e, w, rfl⟩ | ⟨i, hi, rfl⟩
  · exact .inr ⟨rfl, errorCode_ne_zero e, rfl, rfl⟩
  · by_cases hhalt : i = .halt
    · subst hhalt
      have hword : wordAtAddr s.dmem s.pc.toNat = 0 := (haltEndsTheRunAndNopOnlyAdvances.1 _).1.1 hi
      exact .inl ⟨rfl, hword, rfl, rfl⟩
    · have hbusy : (effectOf i (turnUsed s)).busy = s.busy := (effectOf_sameSequencer hhalt (turnUsed s)).busy
      rw [State.advancePc_busy, hbusy, hb] at hidle
      cases hidle

/-- The running sequencer leaves the interrupt enables (10_state.md R32). -/
theorem step_running_enables {s t : State} (hturn : sequencersTurn s) (hb : s.busy = true) (h : step s = .next t) :
    t.ieDone = s.ieDone ∧ t.ieErr = s.ieErr := by
  rcases step_running_fetched hturn hb h with ⟨e, w, rfl⟩ | ⟨i, -, rfl⟩
  · exact ⟨rfl, rfl⟩
  · have houtside := effectOf_sameOutside i (turnUsed s)
    exact ⟨houtside.ieDone, houtside.ieErr⟩

/-- Settles O60: a run starts from DONE = ERR = 0, and its end sets one of the two and leaves the other and the enables. -/
theorem interruptFollowsDoneAndErr : Obligations.InterruptFollowsDoneAndErr := by
  intro s hs hb
  obtain ⟨hdone, herr⟩ := hs.busyClear hb
  refine ⟨by simp [State.irq, hdone, herr], fun t hturn h hidle => ?_⟩
  obtain ⟨hieDone, hieErr⟩ := step_running_enables hturn hb h
  rcases busyFallsWithDoneOrErr s t hturn hb h hidle with ⟨htdone, -, -, hterr⟩ | ⟨hterr, -, -, htdone⟩
  · rw [herr] at hterr
    simp [State.irq, htdone, hterr, hieDone]
  · rw [hdone] at htdone
    simp [State.irq, htdone, hterr, hieErr]

/-! ### Hazards -/

/-- Settles O58: the access is in spec at its address, and it stores as many bytes as it is wide. -/
theorem busyDmemWriteTouchesOnlyItsBytes : Obligations.BusyDmemWriteTouchesOnlyItsBytes := by
  intro s rest off a n v hb hs hoff ha hn halign h
  have hspec : accessInSpec off n = true :=
    (accessInSpec_beyondCsr_iff (by omega) n).2 ⟨hn, hoff ▸ (window_aligned_iff hn).2 halign⟩
  have htarget : portTarget s.cfg.dmemSize off = .dmem a := portTarget_dmem_iff.2 ⟨hoff, ha⟩
  have hlen : (s.hazardBytes n).length = n := by simp [State.hazardBytes]
  obtain ⟨-, houtside⟩ := storedAt_writeBytes hs.canonical a (s.hazardBytes n)
  rw [hlen] at houtside
  refine ⟨s.dmem.writeBytes a (s.hazardBytes n), s.freeCtr + n, ?_, houtside⟩
  rw [step_hostWrite h hspec, htarget]
  simp [State.hostWrite, hb, State.memWrite, State.hazardBytes]

/-! ### Checkpoints -/

/-- The words stored at an address are those read from there, while nothing is stored in between (20_memory.md R63). -/
theorem memWords_of_stored {s : State} (hwf : s.dmem.wf) {a : Nat} {ws : List Word} {u : State}
    (hdmem : u.dmem = s.dmem.writeBytes a (leBytes ws)) : u.memWords a ws.length = ws := by
  rw [State.memWords, State.memRead, hdmem, ← leBytes_length, Memory.readBytes_writeBytes hwf, leWords_leBytes]

/-- LDSTATE's chaining value is the words that it loads (43_ubi.md R221). -/
theorem chainOf_restartWith {s : State} {ws : List Word} (hlen : ws.length = s.nw.toNat) (hfits : ws.length ≤ 16) :
    chainOf (s.restartWith ws) = ws := by
  rw [chainOf, State.restartWith_chain, State.restartWith_nw, ← hlen]
  exact takeFirst_putFirst ws s.chain hfits

/-- Settles O29: STSTATE is one store of the chaining value, whose words LDSTATE reads back and restarts under. -/
theorem checkpointRestoresTheChainingValue : Obligations.CheckpointRestoresTheChainingValue := by
  intro addr len s t u hphase hnw hlen hrange hwf hstore hphase' hnw' hcfg hdmem
  have hsave : firstError (checksOf (.ststate addr len) s) = none := lengthAndRangeChecks_pass hphase hlen hrange
  rw [← hnw'] at hlen hrange
  rw [← hcfg] at hrange
  have hload : firstError (checksOf (.ldstate addr len) u) = none := lengthAndRangeChecks_pass hphase' hlen hrange
  rw [exec_ok hsave] at hstore
  obtain rfl := Host.Outcome.next.inj hstore
  have hwords : (chainOf s).length = u.nw.toNat := by rw [chainOf_length hnw, hnw']
  have hread : u.memWords addr.toNat u.words = chainOf s := by
    rw [State.words, ← hwords]
    exact memWords_of_stored hwf hdmem
  have hfits : (chainOf s).length ≤ 16 := by simp [chainOf]
  refine ⟨(u.restartWith (chainOf s)).advancePc, ?_, chainOf_restartWith hwords hfits⟩
  rw [exec_ok hload, effectOf, hread]

end Sys2Proof.Proofs
